-- ==== Sys2Proof/Word.lean ====
section
/-! DEFINITION. The two widths of the block: the byte of every stream and buffer, and the 16-bit
number of A.NUM and RESULT (00_scope.md R8, 10_state.md R22). All values are unsigned. -/

namespace Sys2Proof

/-- A byte (R8). -/
abbrev Byte := BitVec 8

/-- A 16-bit number (R22: `A.NUM`, `RESULT`). -/
abbrev Half := BitVec 16

end Sys2Proof
end

