-- ==== Sys2Proof/Config.lean ====
section
/-! DEFINITION. The parameters of 00_scope.md R6: the fixed ones with their values, the OPEN ones as
constants without a body (nothing can be proved of their values), and the free values: the answer to a
read of the transport for which the environment has laid down none (20_memory.md R52), and two values
that the spec does not state for some lengths RLEN8 (log 6). -/

namespace Sys2Proof

/-- The payload width of SET_CYCLE_TIMES in bytes: `CFG.CYCLE_W` (R6, 10_state.md R31). -/
inductive CycleWidth where
  | one
  | two
  deriving DecidableEq, Repr, Inhabited

/-- The two straps, sampled at reset and constant afterwards (10_state.md R31). -/
structure Straps where
  pathUpper : Bool
  cycleW    : CycleWidth
  deriving DecidableEq, Repr, Inhabited

/-- The OPEN parameters of an instance that the block's results depend on (R6, log 5): `RLEN8`, the number
of bytes an 8-bit query reads, is any natural (log 6). -/
structure Params where
  rlen8   : Nat
  psFail  : Byte
  devFail : Byte
  deriving DecidableEq, Repr, Inhabited

/-- One answer of the transport's read primitive (20_memory.md R42): the bytes obtained, or the
transport never returns (70_reset_and_hazards.md R192 (b)). -/
inductive RxAnswer where
  | bytes (bs : List Byte)
  | never
  deriving DecidableEq, Repr, Inhabited

/-- Named values of the Device enumeration (R6 `DeviceCode`, R12). -/
inductive Device where
  | usb
  | sd
  | onboardFlash
  deriving DecidableEq, Repr

/-- Named values of the PlayState enumeration other than its failure sentinel (R6 `PlayStateCode`). -/
inductive PlayState where
  | stopped
  | playing
  | paused
  deriving DecidableEq, Repr

namespace Config

/-- `HEADER`: the first byte of every frame (R6). -/
def header : Byte := 0xAA#8

/-- `RLEN16`: bytes read for a 16-bit query (R6, 45_query_commands.md R149). -/
def rlen16 : Nat := 6

/-- The size of RXBUF in bytes (10_state.md R30). -/
def rxbufSize : Nat := 6

/-- `COUNT_FAIL`: the failure sentinel of the four 16-bit queries (R6). -/
def countFail : Half := 0x0000#16

/-- `PAYLOAD_MAX` (R6, 30_encoding.md R61). -/
def payloadMax : Nat := 255

/-- `ENCPATH_MAX` (R6): `PAYLOAD_MAX` less the device byte. -/
def encPathMax : Nat := 254

/-- `TOKENS_MAX` (R6): `2 * N <= 255`. -/
def tokensMax : Nat := 127

/-- `VOL_MAX` (R6): the documented range of the volume operand, not enforced (R108). -/
def volMax : Nat := 30

/-- The strap `CFG.PATH_UPPER` at power-up, OPEN (R6, log 4). -/
opaque strapPathUpper : Bool

/-- The strap `CFG.CYCLE_W` at power-up, OPEN (R6, log 4). -/
opaque strapCycleW : CycleWidth

/-- `PS_FAIL`, OPEN (R6, log 5). -/
opaque psFail : Byte

/-- `DEV_FAIL`, OPEN (R6, log 5). -/
opaque devFail : Byte

/-- `DeviceCode`, OPEN (R6, log 7). -/
opaque deviceCode : Device → Byte

/-- `PlayStateCode`, OPEN (R6, log 7). -/
opaque playStateCode : PlayState → Byte

/-- `EqCode`, OPEN (R6, log 7): the source lists no members, so a member is any name. -/
opaque eqCode : String → Byte

/-- `PlayModeCode`, OPEN (R6, log 7): the source lists no members, so a member is any name. -/
opaque playModeCode : String → Byte

/-- The free value of 20_memory.md R52 (log 13): what the transport answers to the read number
`reads` asking for `n` bytes, when the environment has laid down no answer. -/
opaque rxAnswer : (reads n : Nat) → RxAnswer

/-- The free value of an 8-bit query whose valid response has no byte at offset 3, because `RLEN8` is less
than 4 (45_query_commands.md R147, log 6), after the read number `reads`. -/
opaque missingData : (reads : Nat) → Byte

/-- The free verdict on a response of no bytes, read when `RLEN8` is 0 (R146 speaks of at least one byte,
log 6), after the read number `reads`. -/
opaque emptyValid : (reads : Nat) → Bool

/-- The free value of RXCNT after a read, the number `reads`, that obtained more bytes than its 3 bits can
count, because `RLEN8` is above 7 (10_state.md R30, log 6). -/
opaque longCount : (reads : Nat) → BitVec 3

/-- The straps of an instance as its environment sets them before the first reset (R188). -/
def straps : Straps := { pathUpper := strapPathUpper, cycleW := strapCycleW }

/-- The parameters of an instance; `RLEN8` at its default (R6). -/
def params : Params := { rlen8 := 5, psFail := psFail, devFail := devFail }

end Config

end Sys2Proof
end

