-- ==== Sys2Proof/Syntax.lean ====
section
/-! DEFINITION. The commands of the block (30_encoding.md R69), one constructor for each row of
opcode_table.json, in the table's order; what the host puts on the command port (R73, 10_state.md
R23, R24); the pseudo-instruction (R76) and the way the spec writes a command as text (R75). -/

namespace Sys2Proof

/-- A token: a two-character sound name (44_combination_play.md R135). -/
structure Token where
  c0 : Byte
  c1 : Byte
  deriving DecidableEq, Repr

/-- The commands. An operand is the one the command reads (R23); SET_CYCLE_TIMES has a constructor
for each of its two rows (R71, R78). -/
inductive Instr where
  | queryPlayState
  | play
  | pause
  | stop
  | previous
  | next
  | playByNumber (n : Half)  -- A.NUM (42_numeric_payload_commands.md R106)
  | playByPath (d : Byte) (p : List Byte)  -- A.DEV and the path bytes S (43_path_commands.md R126)
  | queryPlayingDevice
  | setDevice (d : Byte)  -- A.DEV (R112)
  | interludeByNumber (d : Byte) (n : Half)  -- A.DEV, A.NUM (R113)
  | querySoundCount
  | queryPlayingSound
  | previousDirLast
  | previousDirFirst
  | stopInterlude
  | queryDirFirst
  | queryDirCount
  | setVolume (v : Byte)  -- A.VAL (R108)
  | volumeUp
  | volumeDown
  | interludeByPath (d : Byte) (p : List Byte)  -- A.DEV and the path bytes S (R127)
  | setCycleMode (m : Byte)  -- A.VAL (R109)
  | setCycleTimesW1 (n : Half)  -- A.NUM; the row of CFG.CYCLE_W = 1 (R110, log 1)
  | setCycleTimesW2 (n : Half)  -- A.NUM; the row of CFG.CYCLE_W = 2 (R110, log 1)
  | setEq (e : Byte)  -- A.VAL (R111)
  | combinationPlay (ts : List Token)  -- the tokens of S, N = A.CNT of them (44_combination_play.md R136)
  | endCombinationPlay
  | select (n : Half)  -- A.NUM (R107)
  deriving DecidableEq, Repr

/-- The mnemonic of a command's row of opcode_table.json. -/
def Instr.mnemonic : Instr → String
  | .queryPlayState => "QUERY_PLAY_STATE"
  | .play => "PLAY"
  | .pause => "PAUSE"
  | .stop => "STOP"
  | .previous => "PREVIOUS"
  | .next => "NEXT"
  | .playByNumber _ => "PLAY_BY_NUMBER"
  | .playByPath _ _ => "PLAY_BY_PATH"
  | .queryPlayingDevice => "QUERY_PLAYING_DEVICE"
  | .setDevice _ => "SET_DEVICE"
  | .interludeByNumber _ _ => "INTERLUDE_BY_NUMBER"
  | .querySoundCount => "QUERY_SOUND_COUNT"
  | .queryPlayingSound => "QUERY_PLAYING_SOUND"
  | .previousDirLast => "PREVIOUS_DIR_LAST"
  | .previousDirFirst => "PREVIOUS_DIR_FIRST"
  | .stopInterlude => "STOP_INTERLUDE"
  | .queryDirFirst => "QUERY_DIR_FIRST"
  | .queryDirCount => "QUERY_DIR_COUNT"
  | .setVolume _ => "SET_VOLUME"
  | .volumeUp => "VOLUME_UP"
  | .volumeDown => "VOLUME_DOWN"
  | .interludeByPath _ _ => "INTERLUDE_BY_PATH"
  | .setCycleMode _ => "SET_CYCLE_MODE"
  | .setCycleTimesW1 _ => "SET_CYCLE_TIMES.W1"
  | .setCycleTimesW2 _ => "SET_CYCLE_TIMES.W2"
  | .setEq _ => "SET_EQ"
  | .combinationPlay _ => "COMBINATION_PLAY"
  | .endCombinationPlay => "END_COMBINATION_PLAY"
  | .select _ => "SELECT"

/-- What the host presents on the command port: the operation selector, the four operand registers
and the operand stream (10_state.md R23, R24). -/
structure PortCmd where
  opsel  : BitVec 5
  dev    : Byte
  num    : Half
  val    : Byte
  cnt    : Byte
  stream : List Byte
  deriving DecidableEq, Repr

/-- The choice of the pseudo-instruction PREVIOUS_DIR (R76). -/
inductive PreviousDirChoice where
  | last
  | first
  deriving DecidableEq, Repr

/-- PREVIOUS_DIR choice expands to one of two commands (R76). -/
def Instr.previousDir : PreviousDirChoice → Instr
  | .last => .previousDirLast
  | .first => .previousDirFirst

/-- SET_DEVICE with a named device: its wire byte is `DeviceCode` of the name (R112). -/
def Instr.setDeviceNamed (d : Device) : Instr := .setDevice (Config.deviceCode d)

/-- SET_EQ with a named equalizer setting: `EqCode` of the name (R111). -/
def Instr.setEqNamed (name : String) : Instr := .setEq (Config.eqCode name)

/-- SET_CYCLE_MODE with a named play mode: `PlayModeCode` of the name (R109). -/
def Instr.setCycleModeNamed (name : String) : Instr := .setCycleMode (Config.playModeCode name)

/-- Bytes written as characters, between double quotes (R75). -/
def quoted (bs : List Byte) : String :=
  "\"" ++ String.ofList (bs.map fun b => Char.ofNat b.toNat) ++ "\""

/-- A token list as R75 writes it. -/
def tokensText (ts : List Token) : String :=
  "[" ++ ", ".intercalate (ts.map fun t => quoted [t.c0, t.c1]) ++ "]"

/-- A command as the spec writes it: MNEMONIC operand, operand (R75), numbers in decimal (log 22). The two
rows of SET_CYCLE_TIMES are one mnemonic there. -/
def Instr.text (i : Instr) : String :=
  match i with
  | .playByNumber n | .select n => i.mnemonic ++ " " ++ toString n.toNat
  | .setCycleTimesW1 n | .setCycleTimesW2 n => "SET_CYCLE_TIMES " ++ toString n.toNat
  | .setDevice v | .setVolume v | .setCycleMode v | .setEq v =>
      i.mnemonic ++ " " ++ toString v.toNat
  | .interludeByNumber d n => i.mnemonic ++ " " ++ toString d.toNat ++ ", " ++ toString n.toNat
  | .playByPath d p | .interludeByPath d p =>
      i.mnemonic ++ " " ++ toString d.toNat ++ ", " ++ quoted p
  | .combinationPlay ts => i.mnemonic ++ " " ++ tokensText ts
  | .play | .pause | .stop | .previous | .next | .previousDirLast | .previousDirFirst
  | .stopInterlude | .volumeUp | .volumeDown | .endCombinationPlay
  | .queryPlayState | .queryPlayingDevice | .querySoundCount | .queryPlayingSound
  | .queryDirFirst | .queryDirCount => i.mnemonic

end Sys2Proof
end

