-- ==== Sys2Proof/Machine/Operands.lean ====
section
/-! DEFINITION. Operand assembly: the bytes a command's operands become inside a frame
(30_encoding.md R62 to R64) and the path transform (43_path_commands.md R120, R121). Pure functions
of the operands and of `CFG.PATH_UPPER`. -/

namespace Sys2Proof.Machine

/-- `n[15:8]`, the high byte of a 16-bit operand (R63). -/
def hi (n : Half) : Byte := n.extractLsb' 8 8

/-- `n[7:0]`, the low byte of a 16-bit operand (R63). -/
def lo (n : Half) : Byte := n.extractLsb' 0 8

/-- `(h << 8) | l` (00_scope.md R8). -/
def join (h l : Byte) : Half := (h.setWidth 16 <<< 8) ||| l.setWidth 16

/-- `zext_16(b)` (R8). -/
def zext16 (b : Byte) : Half := b.setWidth 16

/-- `'.'` (R8). -/
def dot : Byte := 0x2E#8

/-- `'/'` (R8). -/
def slash : Byte := 0x2F#8

/-- `'*'` (R8). -/
def star : Byte := 0x2A#8

/-- `Fold(c, upper)` (R121): only 0x61 to 0x7A change, each less 0x20. -/
def fold (c : Byte) (upper : Bool) : Byte :=
  if upper && 0x61 ≤ c.toNat && c.toNat ≤ 0x7A then c - 0x20#8 else c

/-- What one path byte after the leading one becomes (R120). -/
def escapeByte (upper : Bool) (c : Byte) : List Byte :=
  if c = dot then [star]
  else if c = slash then [star, slash]
  else [fold c upper]

/-- `EncodePath(p, upper)` (R120): the leading byte verbatim, then every byte escaped. It is defined
for a path of at least one byte; on the empty path, for which no frame is sent (R123), it is empty. -/
def encodePath (p : List Byte) (upper : Bool) : List Byte :=
  match p with
  | [] => []
  | c :: rest => c :: rest.flatMap (escapeByte upper)

/-- The token bytes of the operand stream, token 0 first, first character first (R135). -/
def tokenBytes (ts : List Token) : List Byte :=
  ts.flatMap fun t => [t.c0, t.c1]

/-- The payload of format `H`: a 16-bit number, high byte first (R62, R63). -/
def numPayload (n : Half) : List Byte := [hi n, lo n]

/-- The payload of format `DH`: the device byte, then the number (R62). -/
def devNumPayload (d : Byte) (n : Half) : List Byte := [d, hi n, lo n]

/-- The payload of SET_CYCLE_TIMES at the configured width (R71, 42_numeric_payload_commands.md R110). -/
def cyclePayload (w : CycleWidth) (n : Half) : List Byte :=
  match w with
  | .one => [lo n]
  | .two => [hi n, lo n]

/-- The payload of format `DP`: the device byte, then the encoded path (R62, R64). -/
def pathPayload (d : Byte) (p : List Byte) (upper : Bool) : List Byte :=
  d :: encodePath p upper

end Sys2Proof.Machine
end

