-- ==== Sys2Proof/Machine/Flags.lean ====
section
/-! DEFINITION. What is computed over byte sequences and decides a flag or a result: the checksum
(40_checksum_and_frame.md R80) and its running form (R81 (b), 10_state.md R28), the validation of a
response (45_query_commands.md R146), and the two decoders (R147, R148). -/

namespace Sys2Proof.Machine

/-- `checksum(bs)`: the sum of the bytes as naturals, modulo 256 (R80). -/
def checksum (bs : List Byte) : Byte := BitVec.ofNat 8 (bs.map BitVec.toNat).sum

/-- The running checksum: `acc <- (acc + b) mod 256` for each byte in order (R81 (b), R28). -/
def runningSum (acc : Byte) (bs : List Byte) : Byte := bs.foldl (· + ·) acc

/-- `Validate(bs)` (R146): the last byte is the checksum of all the others, and nothing else is
tested. It is defined for at least one byte; the read phase never asks it about none (log 6). -/
def validate (bs : List Byte) : Bool :=
  match bs.getLast? with
  | none => false
  | some c => c == checksum bs.dropLast

/-- The byte at an offset, for offsets inside the bytes; `0` past their end, where no rule reads. -/
def byteAt (bs : List Byte) (k : Nat) : Byte := bs.getD k 0#8

/-- `Decode8(bs) = bs[3]` (R147); the given free value where the response has no such byte (log 6). -/
def decode8 (free : Byte) (bs : List Byte) : Byte := bs.getD 3 free

/-- `Decode16(bs) = (bs[3] << 8) | bs[4]` (R148). -/
def decode16 (bs : List Byte) : Half := join (byteAt bs 3) (byteAt bs 4)

/-- The class of a query's reply, fixed per command (R151): a byte at offset 3, or a 16-bit
big-endian value at offsets 3 and 4 (30_encoding.md R65). -/
inductive RespClass where
  | resp8
  | resp16
  deriving DecidableEq, Repr

/-- How many bytes a query of this class reads (R149). -/
def RespClass.readLength (c : RespClass) (par : Params) : Nat :=
  match c with
  | .resp8 => par.rlen8
  | .resp16 => Config.rlen16

/-- The value a valid response gives to RESULT (10_state.md R25): an 8-bit value is zero-extended. -/
def RespClass.value (c : RespClass) (free : Byte) (bs : List Byte) : Half :=
  match c with
  | .resp8 => zext16 (decode8 free bs)
  | .resp16 => decode16 bs

end Sys2Proof.Machine
end

