-- ==== Sys2Proof/WellFormed.lean ====
section
/-! DEFINITION. When a command can be put on the command port: its path length or token count fits
the 8-bit `A.CNT` (10_state.md R23, R24). Every value of the other operands is admitted (R63). The
admitted domain of R11 is NOT this: it is checked when the command executes (40 R85). -/

namespace Sys2Proof

/-- `A.CNT` can hold the length of the command's variable operand (R23: 0 to 255). -/
def Instr.wellFormed (i : Instr) : Bool :=
  match i with
  | .playByPath _ p => p.length ≤ 255
  | .interludeByPath _ p => p.length ≤ 255
  | .combinationPlay ts => ts.length ≤ 255
  | .play | .pause | .stop | .previous | .next | .previousDirLast | .previousDirFirst
  | .stopInterlude | .volumeUp | .volumeDown | .endCombinationPlay
  | .queryPlayState | .queryPlayingDevice | .querySoundCount | .queryPlayingSound
  | .queryDirFirst | .queryDirCount
  | .playByNumber _ | .select _ | .setDevice _ | .setVolume _ | .setCycleMode _ | .setEq _
  | .setCycleTimesW1 _ | .setCycleTimesW2 _ | .interludeByNumber _ _ => true

end Sys2Proof
end

