-- ==== Sys2Proof/Decode.lean ====
section
/-! DEFINITION. The two encodings of a command and their decoders. On the WIRE: the frame's prefix and
payload (30_encoding.md R60 to R64, R69, R78), the checksum following. On the COMMAND PORT: OPSEL, the
operand registers and the operand stream (R73, 10_state.md R23, R24); the block executes what is
decoded from the port, and nothing on the wire is ever fetched (20_memory.md R50). -/

namespace Sys2Proof

open Machine

/-- Why bytes are not the frame of a command. -/
inductive DecodeError where
  | truncatedPrefix     -- fewer than three bytes
  | badHeader           -- offset 0 is not 0xAA (R60)
  | unassignedOpcode    -- an opcode that is not in the table (R72)
  | lengthNotOfFormat   -- a length byte the opcode's format does not have (R62, R70)
  | truncatedPayload    -- fewer payload bytes than the length byte says (R74)
  | badPathEscape       -- a path byte no encoded path contains (43_path_commands.md R120)
  | truncatedChecksum   -- no checksum byte (R60)
  | badChecksum         -- the checksum byte is not the sum of the bytes before it (40 R82)
  deriving DecidableEq, Repr

/-- Why the port's operands are not a command. -/
inductive PortError where
  | reservedOpsel  -- OPSEL 28 to 31 select nothing (R72, R73)
  | streamStarved  -- fewer stream bytes than A.CNT announces (70_reset_and_hazards.md R195)
  deriving DecidableEq, Repr

/-! ### Decoding the wire -/

/-- Bytes two by two (44_combination_play.md R135); an odd last byte is no token. -/
def pairTokens (bs : List Byte) : List Token :=
  match bs with
  | a :: b :: rest => ⟨a, b⟩ :: pairTokens rest
  | _ => []

/-- A path whose bytes after the leading one escape to the given bytes (43 R120). The transform is not
injective: `'*'` not followed by `'/'` is read as `'.'` (log 21). A `'.'`, and a `'/'` with no `'*'`
before it, stand in no encoded path. -/
def unescapePath (bs : List Byte) : Option (List Byte) :=
  match bs with
  | [] => some []
  | [c] => if c = dot ∨ c = slash then none else if c = star then some [dot] else some [c]
  | c :: e :: rest =>
    if c = dot ∨ c = slash then none
    else if c = star then
      if e = slash then (unescapePath rest).map (slash :: ·)
      else (unescapePath (e :: rest)).map (dot :: ·)
    else (unescapePath (e :: rest)).map (c :: ·)

/-- Format `Z`: no payload (R62). -/
def noOperand (i : Instr) (p : List Byte) : Except DecodeError Instr :=
  match p with
  | [] => .ok i
  | _ => .error .lengthNotOfFormat

/-- Format `B`: one byte (R62). -/
def byteOperand (f : Byte → Instr) (p : List Byte) : Except DecodeError Instr :=
  match p with
  | [v] => .ok (f v)
  | _ => .error .lengthNotOfFormat

/-- Format `H`: a number, high byte first (R62, R63). -/
def numberOperand (f : Half → Instr) (p : List Byte) : Except DecodeError Instr :=
  match p with
  | [h, l] => .ok (f (join h l))
  | _ => .error .lengthNotOfFormat

/-- Format `DP`: the device byte and the encoded path (R62). The row of the opcode table leaves the
length byte free (R78): with no path bytes the command is the one with the empty path, whose device
byte is ignored (43 R123, log 21). -/
def pathOperand (f : Byte → List Byte → Instr) (p : List Byte) : Except DecodeError Instr :=
  match p with
  | [] => .ok (f 0x00#8 [])
  | [d] => .ok (f d [])
  | d :: c :: rest =>
    match unescapePath rest with
    | none => .error .badPathEscape
    | some r => .ok (f d (c :: r))

/-- The command of an opcode and a payload (R69, R70, R71). -/
def decodePayload (op : Nat) (p : List Byte) : Except DecodeError Instr :=
  match op with
  | 0x01 => noOperand .queryPlayState p
  | 0x02 => noOperand .play p
  | 0x03 => noOperand .pause p
  | 0x04 => noOperand .stop p
  | 0x05 => noOperand .previous p
  | 0x06 => noOperand .next p
  | 0x07 => numberOperand .playByNumber p
  | 0x08 => pathOperand .playByPath p
  | 0x0A => noOperand .queryPlayingDevice p
  | 0x0B => match p with
    | [d] => .ok (.setDevice d)
    | [d, h, l] => .ok (.interludeByNumber d (join h l))
    | _ => .error .lengthNotOfFormat
  | 0x0C => noOperand .querySoundCount p
  | 0x0D => noOperand .queryPlayingSound p
  | 0x0E => noOperand .previousDirLast p
  | 0x0F => noOperand .previousDirFirst p
  | 0x10 => noOperand .stopInterlude p
  | 0x11 => noOperand .queryDirFirst p
  | 0x12 => noOperand .queryDirCount p
  | 0x13 => byteOperand .setVolume p
  | 0x14 => noOperand .volumeUp p
  | 0x15 => noOperand .volumeDown p
  | 0x17 => pathOperand .interludeByPath p
  | 0x18 => byteOperand .setCycleMode p
  | 0x19 => match p with
    | [v] => .ok (.setCycleTimesW1 (zext16 v))
    | [h, l] => .ok (.setCycleTimesW2 (join h l))
    | _ => .error .lengthNotOfFormat
  | 0x1A => byteOperand .setEq p
  | 0x1B => if p.length % 2 = 0 then .ok (.combinationPlay (pairTokens p)) else .error .lengthNotOfFormat
  | 0x1C => noOperand .endCombinationPlay p
  | 0x1F => numberOperand .select p
  | _ => .error .unassignedOpcode

/-- The command whose prefix and payload stand at the head of the bytes, and the bytes after them
(R60, R61, R74). -/
def decode (bs : List Byte) : Except DecodeError (Instr × List Byte) :=
  match bs with
  | h :: op :: len :: rest =>
    if h ≠ Config.header then .error .badHeader
    else if rest.length < len.toNat then .error .truncatedPayload
    else
      match decodePayload op.toNat (rest.take len.toNat) with
      | .error e => .error e
      | .ok i => .ok (i, rest.drop len.toNat)
  | _ => .error .truncatedPrefix

/-- The command of a whole frame at the head of the bytes, its checksum tested, and the bytes after
it (R60, R74, 40_checksum_and_frame.md R82). -/
def decodeFrame (bs : List Byte) : Except DecodeError (Instr × List Byte) :=
  match decode bs with
  | .error e => .error e
  | .ok (i, rest) =>
    match rest with
    | [] => .error .truncatedChecksum
    | c :: after =>
      if c = checksum (bs.take (bs.length - rest.length)) then .ok (i, after) else .error .badChecksum

/-! ### Encoding for the wire -/

/-- The opcode byte (R69). -/
def Instr.opcode : Instr → Byte
  | .queryPlayState => 0x01#8
  | .play => 0x02#8
  | .pause => 0x03#8
  | .stop => 0x04#8
  | .previous => 0x05#8
  | .next => 0x06#8
  | .playByNumber _ => 0x07#8
  | .playByPath _ _ => 0x08#8
  | .queryPlayingDevice => 0x0A#8
  | .setDevice _ => 0x0B#8
  | .interludeByNumber _ _ => 0x0B#8
  | .querySoundCount => 0x0C#8
  | .queryPlayingSound => 0x0D#8
  | .previousDirLast => 0x0E#8
  | .previousDirFirst => 0x0F#8
  | .stopInterlude => 0x10#8
  | .queryDirFirst => 0x11#8
  | .queryDirCount => 0x12#8
  | .setVolume _ => 0x13#8
  | .volumeUp => 0x14#8
  | .volumeDown => 0x15#8
  | .interludeByPath _ _ => 0x17#8
  | .setCycleMode _ => 0x18#8
  | .setCycleTimesW1 _ => 0x19#8
  | .setCycleTimesW2 _ => 0x19#8
  | .setEq _ => 0x1A#8
  | .combinationPlay _ => 0x1B#8
  | .endCombinationPlay => 0x1C#8
  | .select _ => 0x1F#8

/-- The payload (R62 to R64); `upper` is `CFG.PATH_UPPER`. -/
def Instr.payload (upper : Bool) : Instr → List Byte
  | .queryPlayState => []
  | .play => []
  | .pause => []
  | .stop => []
  | .previous => []
  | .next => []
  | .playByNumber n => numPayload n
  | .playByPath d p => pathPayload d p upper
  | .queryPlayingDevice => []
  | .setDevice d => [d]
  | .interludeByNumber d n => devNumPayload d n
  | .querySoundCount => []
  | .queryPlayingSound => []
  | .previousDirLast => []
  | .previousDirFirst => []
  | .stopInterlude => []
  | .queryDirFirst => []
  | .queryDirCount => []
  | .setVolume v => [v]
  | .volumeUp => []
  | .volumeDown => []
  | .interludeByPath d p => pathPayload d p upper
  | .setCycleMode m => [m]
  | .setCycleTimesW1 n => [lo n]
  | .setCycleTimesW2 n => numPayload n
  | .setEq e => [e]
  | .combinationPlay ts => tokenBytes ts
  | .endCombinationPlay => []
  | .select n => numPayload n

/-- The count of the one-byte row of SET_CYCLE_TIMES fits a byte (R110); nothing else is checked. -/
def Instr.fitsRow : Instr → Bool
  | .setCycleTimesW1 n => n.toNat ≤ 255
  | _ => true

/-- The prefix and payload of a command, if its payload fits the length byte (R60, R61). For the empty
path and the empty token list these are the words of the command only: the block sends no frame for
them (R62). -/
def encode (upper : Bool) (i : Instr) : Option (List Byte) :=
  if i.fitsRow && (i.payload upper).length ≤ 255 then
    some (Config.header :: i.opcode :: BitVec.ofNat 8 (i.payload upper).length :: i.payload upper)
  else none

/-! ### The command port -/

/-- How many bytes of S the command takes: `A.CNT` for a path, `2 * A.CNT` for tokens, none for any
other (10_state.md R24). -/
def streamLength (c : PortCmd) : Nat :=
  match c.opsel.toNat with
  | 7 => c.cnt.toNat
  | 21 => c.cnt.toNat
  | 25 => 2 * c.cnt.toNat
  | _ => 0

/-- The command the port's operands name (R73); `CFG.CYCLE_W` tells the two rows of SET_CYCLE_TIMES
apart (R71). Stream bytes beyond those it takes are not taken (70 R195). A command that is short of stream
bytes AND outside its admitted domain (128 tokens or more, a first path byte other than `'/'`, a payload
too long) is short here and never judged: the spec gives no order of the two, the model's choice
(log 17). -/
def decodePort (w : CycleWidth) (c : PortCmd) : Except PortError Instr :=
  match c.opsel.toNat with
  | 0 => .ok .queryPlayState
  | 1 => .ok .play
  | 2 => .ok .pause
  | 3 => .ok .stop
  | 4 => .ok .previous
  | 5 => .ok .next
  | 6 => .ok (.playByNumber c.num)
  | 7 => if c.stream.length < streamLength c then .error .streamStarved
    else .ok (.playByPath c.dev (c.stream.take (streamLength c)))
  | 8 => .ok .queryPlayingDevice
  | 9 => .ok (.setDevice c.dev)
  | 10 => .ok (.interludeByNumber c.dev c.num)
  | 11 => .ok .querySoundCount
  | 12 => .ok .queryPlayingSound
  | 13 => .ok .previousDirLast
  | 14 => .ok .previousDirFirst
  | 15 => .ok .stopInterlude
  | 16 => .ok .queryDirFirst
  | 17 => .ok .queryDirCount
  | 18 => .ok (.setVolume c.val)
  | 19 => .ok .volumeUp
  | 20 => .ok .volumeDown
  | 21 => if c.stream.length < streamLength c then .error .streamStarved
    else .ok (.interludeByPath c.dev (c.stream.take (streamLength c)))
  | 22 => .ok (.setCycleMode c.val)
  | 23 => match w with
    | .one => .ok (.setCycleTimesW1 c.num)
    | .two => .ok (.setCycleTimesW2 c.num)
  | 24 => .ok (.setEq c.val)
  | 25 => if c.stream.length < streamLength c then .error .streamStarved
    else .ok (.combinationPlay (pairTokens (c.stream.take (streamLength c))))
  | 26 => .ok .endCombinationPlay
  | 27 => .ok (.select c.num)
  | _ => .error .reservedOpsel

/-- A port command with only its selector; operands it does not read are ignored (R23). -/
def noOperands (k : BitVec 5) : PortCmd :=
  { opsel := k, dev := 0x00#8, num := 0x0000#16, val := 0x00#8, cnt := 0x00#8, stream := [] }

/-- What the host presents on the port for a command (R23, R24, R73). -/
def encodePort : Instr → PortCmd
  | .queryPlayState => noOperands 0#5
  | .play => noOperands 1#5
  | .pause => noOperands 2#5
  | .stop => noOperands 3#5
  | .previous => noOperands 4#5
  | .next => noOperands 5#5
  | .playByNumber n => { noOperands 6#5 with num := n }
  | .playByPath d p => { noOperands 7#5 with dev := d, cnt := BitVec.ofNat 8 p.length, stream := p }
  | .queryPlayingDevice => noOperands 8#5
  | .setDevice d => { noOperands 9#5 with dev := d }
  | .interludeByNumber d n => { noOperands 10#5 with dev := d, num := n }
  | .querySoundCount => noOperands 11#5
  | .queryPlayingSound => noOperands 12#5
  | .previousDirLast => noOperands 13#5
  | .previousDirFirst => noOperands 14#5
  | .stopInterlude => noOperands 15#5
  | .queryDirFirst => noOperands 16#5
  | .queryDirCount => noOperands 17#5
  | .setVolume v => { noOperands 18#5 with val := v }
  | .volumeUp => noOperands 19#5
  | .volumeDown => noOperands 20#5
  | .interludeByPath d p => { noOperands 21#5 with dev := d, cnt := BitVec.ofNat 8 p.length, stream := p }
  | .setCycleMode m => { noOperands 22#5 with val := m }
  | .setCycleTimesW1 n => { noOperands 23#5 with num := n }
  | .setCycleTimesW2 n => { noOperands 23#5 with num := n }
  | .setEq e => { noOperands 24#5 with val := e }
  | .combinationPlay ts => { noOperands 25#5 with cnt := BitVec.ofNat 8 ts.length, stream := tokenBytes ts }
  | .endCombinationPlay => noOperands 26#5
  | .select n => { noOperands 27#5 with num := n }

/-- A port command that selects nothing (R72). -/
def noCommand : PortCmd := noOperands 31#5

/-! ### The opcode table -/

/-- A row of opcode_table.json: a 24-bit pattern and mask over the frame's prefix, offset 0 in bits 23
to 16 (R78). -/
structure OpcodeRow where
  mnemonic : String
  pattern  : Nat
  mask     : Nat
  opsel    : Nat
  deriving DecidableEq, Repr

/-- The rows of opcode_table.json, first half. -/
def opcodeTableLow : List OpcodeRow :=
  [ ⟨"QUERY_PLAY_STATE", 0xAA0100, 0xFFFFFF, 0⟩,
    ⟨"PLAY", 0xAA0200, 0xFFFFFF, 1⟩,
    ⟨"PAUSE", 0xAA0300, 0xFFFFFF, 2⟩,
    ⟨"STOP", 0xAA0400, 0xFFFFFF, 3⟩,
    ⟨"PREVIOUS", 0xAA0500, 0xFFFFFF, 4⟩,
    ⟨"NEXT", 0xAA0600, 0xFFFFFF, 5⟩,
    ⟨"PLAY_BY_NUMBER", 0xAA0702, 0xFFFFFF, 6⟩,
    ⟨"PLAY_BY_PATH", 0xAA0800, 0xFFFF00, 7⟩,
    ⟨"QUERY_PLAYING_DEVICE", 0xAA0A00, 0xFFFFFF, 8⟩,
    ⟨"SET_DEVICE", 0xAA0B01, 0xFFFFFF, 9⟩,
    ⟨"INTERLUDE_BY_NUMBER", 0xAA0B03, 0xFFFFFF, 10⟩,
    ⟨"QUERY_SOUND_COUNT", 0xAA0C00, 0xFFFFFF, 11⟩,
    ⟨"QUERY_PLAYING_SOUND", 0xAA0D00, 0xFFFFFF, 12⟩,
    ⟨"PREVIOUS_DIR_LAST", 0xAA0E00, 0xFFFFFF, 13⟩,
    ⟨"PREVIOUS_DIR_FIRST", 0xAA0F00, 0xFFFFFF, 14⟩ ]

/-- The rows of opcode_table.json, second half. -/
def opcodeTableHigh : List OpcodeRow :=
  [ ⟨"STOP_INTERLUDE", 0xAA1000, 0xFFFFFF, 15⟩,
    ⟨"QUERY_DIR_FIRST", 0xAA1100, 0xFFFFFF, 16⟩,
    ⟨"QUERY_DIR_COUNT", 0xAA1200, 0xFFFFFF, 17⟩,
    ⟨"SET_VOLUME", 0xAA1301, 0xFFFFFF, 18⟩,
    ⟨"VOLUME_UP", 0xAA1400, 0xFFFFFF, 19⟩,
    ⟨"VOLUME_DOWN", 0xAA1500, 0xFFFFFF, 20⟩,
    ⟨"INTERLUDE_BY_PATH", 0xAA1700, 0xFFFF00, 21⟩,
    ⟨"SET_CYCLE_MODE", 0xAA1801, 0xFFFFFF, 22⟩,
    ⟨"SET_CYCLE_TIMES.W1", 0xAA1901, 0xFFFFFF, 23⟩,
    ⟨"SET_CYCLE_TIMES.W2", 0xAA1902, 0xFFFFFF, 23⟩,
    ⟨"SET_EQ", 0xAA1A01, 0xFFFFFF, 24⟩,
    ⟨"COMBINATION_PLAY", 0xAA1B00, 0xFFFF01, 25⟩,
    ⟨"END_COMBINATION_PLAY", 0xAA1C00, 0xFFFFFF, 26⟩,
    ⟨"SELECT", 0xAA1F02, 0xFFFFFF, 27⟩ ]

/-- The 29 rows of opcode_table.json. -/
def opcodeTable : List OpcodeRow := opcodeTableLow ++ opcodeTableHigh

/-- The three-byte prefix as the table's number: offset 0 in the most significant byte (R78). -/
def prefixNumber (bs : List Byte) : Nat :=
  match bs with
  | a :: b :: c :: _ => a.toNat <<< 16 ||| b.toNat <<< 8 ||| c.toNat
  | _ => 0

/-- Whether a frame belongs to a row (R78). -/
def OpcodeRow.covers (r : OpcodeRow) (bs : List Byte) : Bool := prefixNumber bs &&& r.mask == r.pattern

/-- The bytes of a word of the opcode table, offset 0 in its most significant byte (R78, log 2), and
behind them zeros, as many as the length byte announces (R61). -/
def tableBytes (nbits w : Nat) : List Byte :=
  (List.range (nbits / 8)).map (fun j => BitVec.ofNat 8 (w >>> (8 * (nbits / 8 - 1 - j))))
    ++ List.replicate ((w >>> (nbits - 24)) % 256) 0x00#8

/-- The command the decoder reads from a word of the opcode table. -/
def decodeTableWord (nbits w : Nat) : Option Instr :=
  match decode (tableBytes nbits w) with
  | .ok (i, _) => some i
  | .error _ => none

end Sys2Proof
end

