-- ==== Sys2Proof/Machine/State.lean ====
section
/-! DEFINITION. The state of the block (10_state.md R22: the complete table), the parameters of the
instance (R32), what the environment has in store (the host's plan, the transport's answers), the
histories a claim is stated over (R32, log 15), the reasons a step can stop, and the state after reset
(R33, 70_reset_and_hazards.md R185, R186). Plain data throughout. -/

namespace Sys2Proof.Machine

/-- An indexed buffer (PBUF, RXBUF) as the list of its written positions with their bytes, positions
strictly rising. A position that is not listed has no value: the spec leaves it unspecified and
treats reading it as a fault (U13, U14; log 9). -/
abbrev Memory := List Host.Cell

/-- The canonical form: strictly rising positions. No listed entry can equal what an unlisted position
reads as, since that is no value. -/
abbrev Memory.wf (m : Memory) : Prop := m.Pairwise fun x y => x.1 < y.1

/-- The values of `ERR` that the block writes (10_state.md R26; value 3 is never written, U16). -/
inductive Err where
  | none  -- NONE
  | comm  -- COMM: CommunicationError
  | csum  -- CSUM: ChecksumError
  deriving DecidableEq, Repr

/-- The 2-bit code of `ERR` (R26). -/
def Err.code : Err → BitVec 2
  | .none => 0#2
  | .comm => 1#2
  | .csum => 2#2

/-- The four values of `PHASE` (10_state.md R27). -/
inductive Phase where
  | idle
  | encode
  | write
  | read
  deriving DecidableEq, Repr

/-- The 2-bit code of `PHASE` (R27). -/
def Phase.code : Phase → BitVec 2
  | .idle => 0#2
  | .encode => 1#2
  | .write => 2#2
  | .read => 3#2

/-- One answered request of the RX history (10_state.md R32, 20_memory.md R42): how many bytes were
asked for, and the bytes obtained. A request that is never answered has no entry: the model's choice
(log 14). -/
structure RxRecord where
  want : Nat
  got  : List Byte
  deriving DecidableEq, Repr

/-- What the host does next: present a command on the command port (R23), or assert and release reset
with the straps at the given values (R185). -/
inductive HostEvent where
  | issue (c : PortCmd)
  | reset (straps : Straps)
  deriving DecidableEq, Repr

/-- The state: the table of R22, the parameters, and the model's own fields (INVENTORY.md). -/
structure State where
  opsel   : BitVec 5         -- OPSEL (R23)
  aDev    : Byte             -- A.DEV (R23)
  aNum    : Half             -- A.NUM (R23)
  aVal    : Byte             -- A.VAL (R23)
  aCnt    : Byte             -- A.CNT (R23)
  stream  : List Byte        -- S: the operand bytes not yet consumed (R24)
  result  : Half             -- RESULT (R25)
  err     : Err              -- ERR (R26)
  busy    : Bool             -- BUSY (R27)
  phase   : Phase            -- PHASE (R27)
  idx     : BitVec 9         -- IDX (R27)
  acc     : Byte             -- ACC (R28)
  pbuf    : Memory           -- PBUF[0..254] (R29)
  plen    : Byte             -- PLEN (R29)
  rxbuf   : Memory           -- RXBUF[0..5] (R30)
  rxcnt   : BitVec 3         -- RXCNT (R30)
  cfg     : Straps           -- CFG.PATH_UPPER, CFG.CYCLE_W (R31)
  par     : Params           -- RLEN8, PS_FAIL, DEV_FAIL: parameters of the instance (R6, R32)
  host    : List HostEvent   -- the host's remaining plan (log 3)
  answers : List RxAnswer    -- the transport's answers to the coming reads (R52, log 13)
  reads   : Nat              -- reads answered so far: the index of the free answer (log 13)
  txRoom  : Option Nat       -- how many more bytes the transport accepts, `none`: all (70 R192, log 25)
  tx      : List Byte        -- TX history (R32, 20_memory.md R41)
  rx      : List RxRecord    -- RX history (R32)
  deriving DecidableEq, Repr

/-- Why a step has no next state although nothing was refused. -/
inductive Fault where
  /-- Raised by `step` when BUSY = 1 and the host asserts no reset: the command in progress never ends
  (the transport's read or write never returned, 70 R192 (b), (d)) and the port accepts no command (70 R189: "no move").
  Safe: the machine stops. -/
  | stuckBusy
  /-- Raised by `step` and by the sequencer when the host supplies fewer stream bytes than the command
  needs: stuck (70 R195, U23). Safe: the machine stops. -/
  | streamStarved
  /-- Raised by the sequencer in READ when the transport never returns: stuck (70 R192 (b), U4).
  Safe: the machine stops. -/
  | readNeverReturns
  /-- Raised by the sequencer in WRITE when the transport accepts no further byte: stuck (70 R192 (d)).
  Safe: the machine stops. -/
  | writeNeverReturns
  /-- Raised by the sequencer when it would hand over a position of PBUF that was never written
  (U13: reading it is a fault of the model). Safe: the machine stops. -/
  | unwrittenBuffer
  deriving DecidableEq, Repr

/-- Inputs outside the admitted domain (00_scope.md R11): the spec's complete list
(93_implementation_defined.md part 2). The spec gives no state after a refusal (log 16). Every one is
safe. -/
inductive Refusal where
  /-- An instruction that has no meaning yet, by its mnemonic. Raised in `exec`'s arms only. Safe. -/
  | notModelled (mnemonic : String)
  /-- A payload of more than 255 bytes (40 R82, 43 R124 (b)). Raised by the path commands. Safe. -/
  | payloadTooLong
  /-- A non-empty path whose first byte is not `'/'` (43 R124 (a)). Raised by the path commands. Safe. -/
  | pathNotAbsolute
  /-- More than 127 tokens (44 R139). Raised by COMBINATION_PLAY. Safe. -/
  | tooManyTokens
  /-- A count above 255 at payload width 1 (42 R110). Raised by SET_CYCLE_TIMES. Safe. -/
  | cycleTimesTooWide
  /-- OPSEL 28 to 31 (30 R72). Raised by `step`. Safe. -/
  | reservedOpsel
  /-- Reset while BUSY = 1 (70 R187). Raised by `step`. Safe. -/
  | resetWhileBusy
  deriving DecidableEq, Repr

/-- How a meaning, an operation or a step ends. -/
abbrev Result := Host.Outcome State Fault Refusal

/-- The state right after reset (R33, R185, R186). The operand registers, which the spec leaves
unspecified, hold 0 (log 8). -/
def State.reset : State where
  opsel   := 0#5
  aDev    := 0#8
  aNum    := 0#16
  aVal    := 0#8
  aCnt    := 0#8
  stream  := []
  result  := 0x0000#16
  err     := .none
  busy    := false
  phase   := .idle
  idx     := 0#9
  acc     := 0#8
  pbuf    := []
  plen    := 0#8
  rxbuf   := []
  rxcnt   := 0#3
  cfg     := Config.straps
  par     := Config.params
  host    := []
  answers := []
  reads   := 0
  txRoom  := none
  tx      := []
  rx      := []

end Sys2Proof.Machine
end

