-- ==== Sys2Proof/Machine/Ops.lean ====
section
/-! DEFINITION. The operations the commands share: the indexed buffers, the two transport primitives
(20_memory.md R41, R42), the frame builder (40_checksum_and_frame.md R82, R83), the start and the end
of a command (R85), the error entry (60_exceptions.md R172), the read phase of a query
(45_query_commands.md R151), and reset (70_reset_and_hazards.md R185 to R187). -/

namespace Sys2Proof.Machine

/-! ### The indexed buffers PBUF and RXBUF -/

/-- The byte at a position, if it was written (U13, U14). -/
def Memory.read (m : Memory) (a : Nat) : Option Byte :=
  match m with
  | [] => none
  | (k, b) :: rest => if k = a then some b else Memory.read rest a

/-- Write one position, keeping the canonical form. -/
def Memory.write (m : Memory) (a : Nat) (b : Byte) : Memory :=
  match m with
  | [] => [(a, b)]
  | (k, c) :: rest =>
    if a < k then (a, b) :: (k, c) :: rest
    else if a = k then (a, b) :: rest
    else (k, c) :: Memory.write rest a b

/-- Write bytes at consecutive positions from `a` on. -/
def Memory.writeList (m : Memory) (a : Nat) (bs : List Byte) : Memory :=
  match bs with
  | [] => m
  | b :: rest => Memory.writeList (m.write a b) (a + 1) rest

/-! ### Sequencing -/

/-- Go on with the next state, if there is one. -/
def andThen (r : Result) (f : State → Result) : Result :=
  match r with
  | .next s => f s
  | .fault e => .fault e
  | .refused e => .refused e

/-! ### The admitted domain -/

/-- Why a path command is refused, if it is (43_path_commands.md R124). -/
def pathAdmission (d : Byte) (p : List Byte) (upper : Bool) : Option Refusal :=
  match p with
  | [] => none
  | c :: _ =>
    if c ≠ slash then some .pathNotAbsolute
    else if Config.payloadMax < (pathPayload d p upper).length then some .payloadTooLong
    else none

/-- Why a command is refused, if it is: the complete list of 93_implementation_defined.md part 2 that
concerns commands (00_scope.md R11). -/
def admission (cfg : Straps) (i : Instr) : Option Refusal :=
  match i with
  | .playByPath d p => pathAdmission d p cfg.pathUpper
  | .interludeByPath d p => pathAdmission d p cfg.pathUpper
  | .combinationPlay ts => if Config.tokensMax < ts.length then some .tooManyTokens else none
  | .setCycleTimesW1 n | .setCycleTimesW2 n =>
    if 255 < n.toNat ∧ cfg.cycleW = .one then some .cycleTimesTooWide else none
  | .play | .pause | .stop | .previous | .next | .previousDirLast | .previousDirFirst
  | .stopInterlude | .volumeUp | .volumeDown | .endCombinationPlay
  | .queryPlayState | .queryPlayingDevice | .querySoundCount | .queryPlayingSound
  | .queryDirFirst | .queryDirCount
  | .playByNumber _ | .select _ | .setDevice _ | .setVolume _ | .setCycleMode _ | .setEq _
  | .interludeByNumber _ _ => none

/-! ### Start and end of a command -/

/-- Acceptance of a command (R85, 10_state.md R27): BUSY rises and the transient state of R27 to R30
is initialised (R21; to its reset values, log 10), so that no command reads what an earlier one
left in it. -/
def accept (s : State) : State :=
  { s with busy := true, idx := 0#9, acc := 0#8, plen := 0#8, rxcnt := 0#3, pbuf := [], rxbuf := [] }

/-- The normal end of a command: RESULT and ERR are written, then PHASE and BUSY fall (R85, R25, R26,
20_memory.md R48 (d)). -/
def finish (value : Half) (s : State) : State :=
  { s with result := value, err := .none, phase := .idle, busy := false }

/-- Error entry, the block's one way of taking an exception (60_exceptions.md R172): RESULT gets the
sentinel, ERR the code, PHASE and BUSY fall. Nothing is saved and control goes nowhere, so there is
no return from it (R173): the block is idle and accepts the next command. -/
def takeError (e : Err) (sentinel : Half) (s : State) : State :=
  { s with result := sentinel, err := e, phase := .idle, busy := false }

/-! ### The transport -/

/-- How many of `n` bytes handed over a transport with this TXROOM accepts (R41: all of them, unless it has stopped
accepting for ever, 70 R192 (d), log 25). -/
def acceptedCount (n : Nat) (room : Option Nat) : Nat :=
  match room with
  | none => n
  | some r => min n r

/-- Whether a write of `n` bytes returns (R192 (c), (d)). -/
def writeReturns (n : Nat) (s : State) : Bool :=
  match s.txRoom with
  | none => true
  | some r => n ≤ r

/-- `TxWrite(bs)` (R41): the accepted bytes join the TX history; nothing is reported, so it cannot fail. -/
def txWrite (bs : List Byte) (s : State) : State :=
  { s with
    tx := s.tx ++ bs.take (acceptedCount bs.length s.txRoom)
    txRoom := s.txRoom.map (· - bs.length) }

/-- The transport's answer to a read of `n` bytes (20_memory.md R52): the one the environment has laid
down, else the free value (log 13). -/
def nextAnswer (n : Nat) (s : State) : RxAnswer :=
  match s.answers with
  | a :: _ => a
  | [] => Config.rxAnswer s.reads n

/-- RXCNT after a read that obtained `k` bytes (R30); a free value where 3 bits cannot hold it (log 6). -/
def obtainedCount (k reads : Nat) : BitVec 3 := if k < 8 then BitVec.ofNat 3 k else Config.longCount reads

/-- The state after a read of `n` bytes was answered with `bs` (R42): at most `n` bytes were obtained
(log 13), they are consumed (R44), and the request joins the RX history. RXCNT and RXBUF
hold what was obtained, as far as 3 bits and 6 bytes reach (log 6); the rest of RXBUF is
unspecified (10_state.md R30). ACC keeps the checksum sent (R28, log 12). -/
def rxAnswered (n : Nat) (bs : List Byte) (s : State) : State :=
  { s with
    answers := s.answers.tail
    reads := s.reads + 1
    rx := s.rx ++ [{ want := n, got := bs.take n }]
    rxcnt := obtainedCount (bs.take n).length s.reads
    rxbuf := Memory.writeList [] 0 ((bs.take n).take Config.rxbufSize) }

/-! ### The frame builder -/

/-- The prefix and the payload of a frame (30_encoding.md R60): everything before its checksum. -/
def frameBody (op : Byte) (p : List Byte) : List Byte :=
  Config.header :: op :: BitVec.ofNat 8 p.length :: p

/-- `BuildFrame(op, p)` (R82); undefined for a payload of more than 255 bytes. -/
def buildFrame (op : Byte) (p : List Byte) : Option (List Byte) :=
  if p.length ≤ Config.payloadMax then some (frameBody op p ++ [checksum (frameBody op p)]) else none

/-- A frame handed over in offset order (R83, R48 (b)). ACC is the sum of the bytes accepted before the
checksum byte, which at the end is the checksum sent (R28), and IDX the offset of the next byte, at the
end the frame's last offset (R27, log 11). -/
def handOver (f : List Byte) (s : State) : State :=
  txWrite f { s with
    phase := .write
    idx := BitVec.ofNat 9 (min (acceptedCount f.length s.txRoom) (f.length - 1))
    acc := checksum (f.take (min (acceptedCount f.length s.txRoom) (f.length - 1))) }

/-- The write phase and what follows it (R85). A frame that the transport never accepts whole leaves the
block in WRITE with BUSY = 1 for ever (70 R192 (d), log 25). -/
def writePhase (f : List Byte) (rest : State → State) (s : State) : State :=
  if writeReturns f.length s then rest (handOver f s) else handOver f s

/-- `SendFrame(op, p)` (R83) and the rest of the command (R85); outside the frame builder's domain it is
refused (R82). -/
def sendFrame (op : Byte) (p : List Byte) (rest : State → State) (s : State) : Result :=
  match buildFrame op p with
  | none => .refused .payloadTooLong
  | some f => .next (writePhase f rest s)

/-- A fire-and-forget command (R85 with `rlen = none`, R86): send the frame, read nothing. -/
def fireAndForget (op : Byte) (p : List Byte) (s : State) : Result :=
  sendFrame op p (finish 0x0000#16) (accept s)

/-- A silent no-op (R85, 60_exceptions.md R168): accepted and ended, nothing written, nothing read. -/
def silentNoOp (s : State) : State := finish 0x0000#16 (accept s)

/-! ### The read phase of a query -/

/-- The verdict on a full-length response (R146); a free value on one of no bytes (log 6). -/
def responseValid (bs : List Byte) (s : State) : Bool :=
  match bs with
  | [] => Config.emptyValid s.reads
  | _ :: _ => validate bs

/-- How an answer is judged (R145, R151, 60_exceptions.md R165 to R167, R171): too few bytes is a
CommunicationError, a full length with a wrong checksum a ChecksumError, else the field is decoded. -/
def judgeResponse (cls : RespClass) (n : Nat) (sentinel : Half) (bs : List Byte) (s : State) : State :=
  if bs.length < n then takeError .comm sentinel s
  else if responseValid bs s then finish (cls.value (Config.missingData s.reads) bs) s
  else takeError .csum sentinel s

/-- `ReadAndDecode` (R151): one read, no retry. A read that never returns leaves the block in READ
with BUSY = 1 (70_reset_and_hazards.md R192 (b)); its request joins no RX history, on which the spec is
silent (10_state.md R32, log 14). -/
def readPhase (cls : RespClass) (sentinel : Half) (s : State) : State :=
  match nextAnswer (cls.readLength s.par) s with
  | .never => { s with phase := .read }
  | .bytes bs =>
    judgeResponse cls (cls.readLength s.par) sentinel (bs.take (cls.readLength s.par))
      (rxAnswered (cls.readLength s.par) bs { s with phase := .read })

/-- A query (R85 with a read): the frame first, then the read (R48 (c)). -/
def query (op : Byte) (cls : RespClass) (sentinel : Half) (s : State) : Result :=
  sendFrame op [] (readPhase cls sentinel) (accept s)

/-! ### Reset -/

/-- Reset asserted and released with the straps at the given values (70 R185, R186): every register
goes to its reset value and the histories start empty; the parameters of the instance, the host's
plan and the transport are not the block's to reset (log 19). While BUSY = 1 it is refused (R187). -/
def resetInput (straps : Straps) (s : State) : Result :=
  if s.busy then .refused .resetWhileBusy
  else .next { State.reset with
    cfg := straps, par := s.par, host := s.host, answers := s.answers, reads := s.reads
    txRoom := s.txRoom }

end Sys2Proof.Machine
end

