-- ==== Sys2Proof/Machine/Combination.lean ====
section
/-! DEFINITION. COMBINATION_PLAY in the streamed form the source prescribes
(44_combination_play.md R135 to R139). -/

namespace Sys2Proof.Machine

/-- Bytes streamed to the transport before the checksum: the accepted ones join ACC, and IDX moves behind
them (R136, R27, R28). -/
def streamBytes (bs : List Byte) (s : State) : State :=
  txWrite bs { s with
    acc := runningSum s.acc (bs.take (acceptedCount bs.length s.txRoom))
    idx := s.idx + BitVec.ofNat 9 (acceptedCount bs.length s.txRoom) }

/-- One token streamed; the bytes accepted are consumed from S (R136, 10_state.md R24, log 24). -/
def streamToken (tok : Token) (s : State) : State :=
  streamBytes [tok.c0, tok.c1] { s with stream := s.stream.drop (acceptedCount 2 s.txRoom) }

/-- The loop over the tokens (R136). -/
def streamTokens (ts : List Token) (s : State) : State :=
  ts.foldl (fun t tok => streamToken tok t) s

/-- The checksum byte and the end of the command (R136), unless the transport never accepts the byte
(70 R192 (d), log 25). -/
def streamChecksum (s : State) : State :=
  if writeReturns 1 s then finish 0x0000#16 (txWrite [s.acc] s) else s

/-- COMBINATION_PLAY (R136): the empty list is a silent no-op (R138), more than 127 tokens are refused
(R139), else the prefix, every token and the running checksum are streamed. S is consumed. -/
def execCombinationPlay (ts : List Token) (s : State) : Result :=
  match ts with
  | [] => .next (silentNoOp s)
  | _ :: _ =>
    if Config.tokensMax < ts.length then .refused .tooManyTokens
    else
      .next (streamChecksum (streamTokens ts
        (streamBytes [Config.header, 0x1B#8, BitVec.ofNat 8 (2 * ts.length)]
          { accept s with phase := .write, stream := tokenBytes ts })))

end Sys2Proof.Machine
end

