-- ==== Sys2Proof/Machine/Numeric.lean ====
section
/-! DEFINITION. The numeric-payload commands (42_numeric_payload_commands.md R105 to R113). No operand
is checked or changed (R105), but for a count too wide for its one-byte field (R110). -/

namespace Sys2Proof.Machine

/-- PLAY_BY_NUMBER (R106). -/
def execPlayByNumber (n : Half) (s : State) : Result := fireAndForget 0x07#8 (numPayload n) s

/-- SELECT (R107). -/
def execSelect (n : Half) (s : State) : Result := fireAndForget 0x1F#8 (numPayload n) s

/-- SET_VOLUME (R108): any byte is sent unchanged. -/
def execSetVolume (v : Byte) (s : State) : Result := fireAndForget 0x13#8 [v] s

/-- SET_CYCLE_MODE (R109). -/
def execSetCycleMode (m : Byte) (s : State) : Result := fireAndForget 0x18#8 [m] s

/-- SET_EQ (R111). -/
def execSetEq (e : Byte) (s : State) : Result := fireAndForget 0x1A#8 [e] s

/-- SET_DEVICE (R112): opcode 0x0B with length 1 (30_encoding.md R70). -/
def execSetDevice (d : Byte) (s : State) : Result := fireAndForget 0x0B#8 [d] s

/-- INTERLUDE_BY_NUMBER (R113): opcode 0x0B with length 3 (R70). -/
def execInterludeByNumber (d : Byte) (n : Half) (s : State) : Result :=
  fireAndForget 0x0B#8 (devNumPayload d n) s

/-- The operation SET_CYCLE_TIMES (R110): the configuration, not the command, picks the payload width
(30_encoding.md R71); a count above 255 is refused at width 1. -/
def setCycleTimes (n : Half) (s : State) : Result :=
  if 255 < n.toNat ∧ s.cfg.cycleW = .one then .refused .cycleTimesTooWide
  else fireAndForget 0x19#8 (cyclePayload s.cfg.cycleW n) s

/-- SET_CYCLE_TIMES by the row of `CFG.CYCLE_W` = 1: the same operation (R71, log 1). -/
def execSetCycleTimesW1 (n : Half) (s : State) : Result := setCycleTimes n s

/-- SET_CYCLE_TIMES by the row of `CFG.CYCLE_W` = 2: the same operation (R71, log 1). -/
def execSetCycleTimesW2 (n : Half) (s : State) : Result := setCycleTimes n s

end Sys2Proof.Machine
end

