-- ==== Sys2Proof/Machine/Path.lean ====
section
/-! DEFINITION. The two path commands (43_path_commands.md R120 to R127). -/

namespace Sys2Proof.Machine

/-- `PathCommand(op)` (R125): the empty path is a silent no-op (R123); a first byte other than `'/'`
and a payload that does not fit the length byte are refused (R124); else the payload is assembled
in PBUF with its length in PLEN, S is consumed (10_state.md R24), and the frame is sent. -/
def pathCommand (op d : Byte) (p : List Byte) (s : State) : Result :=
  match p with
  | [] => .next (silentNoOp s)
  | c :: _ =>
    if c ≠ slash then .refused .pathNotAbsolute
    else if Config.payloadMax < (pathPayload d p s.cfg.pathUpper).length then .refused .payloadTooLong
    else
      sendFrame op (pathPayload d p s.cfg.pathUpper) (finish 0x0000#16)
        { accept s with
          stream := []
          pbuf := Memory.writeList [] 0 (pathPayload d p s.cfg.pathUpper)
          plen := BitVec.ofNat 8 (pathPayload d p s.cfg.pathUpper).length }

/-- PLAY_BY_PATH (R126). -/
def execPlayByPath (d : Byte) (p : List Byte) (s : State) : Result := pathCommand 0x08#8 d p s

/-- INTERLUDE_BY_PATH (R127). -/
def execInterludeByPath (d : Byte) (p : List Byte) (s : State) : Result := pathCommand 0x17#8 d p s

end Sys2Proof.Machine
end

