-- ==== Sys2Proof/Machine/Query.lean ====
section
/-! DEFINITION. The six queries (45_query_commands.md R152 to R157), each with its class and its
failure sentinel (R150). -/

namespace Sys2Proof.Machine

/-- QUERY_PLAY_STATE (R152). -/
def execQueryPlayState (s : State) : Result := query 0x01#8 .resp8 (zext16 s.par.psFail) s

/-- QUERY_PLAYING_DEVICE (R153). -/
def execQueryPlayingDevice (s : State) : Result := query 0x0A#8 .resp8 (zext16 s.par.devFail) s

/-- QUERY_SOUND_COUNT (R154). -/
def execQuerySoundCount (s : State) : Result := query 0x0C#8 .resp16 Config.countFail s

/-- QUERY_PLAYING_SOUND (R155). -/
def execQueryPlayingSound (s : State) : Result := query 0x0D#8 .resp16 Config.countFail s

/-- QUERY_DIR_FIRST (R156). -/
def execQueryDirFirst (s : State) : Result := query 0x11#8 .resp16 Config.countFail s

/-- QUERY_DIR_COUNT (R157). -/
def execQueryDirCount (s : State) : Result := query 0x12#8 .resp16 Config.countFail s

end Sys2Proof.Machine
end

