-- ==== Sys2Proof/Machine/ZeroPayload.lean ====
section
/-! DEFINITION. The eleven zero-payload commands (41_zero_payload_commands.md R90 to R101). -/

namespace Sys2Proof.Machine

/-- PLAY (R91). -/
def execPlay (s : State) : Result := fireAndForget 0x02#8 [] s

/-- PAUSE (R92). -/
def execPause (s : State) : Result := fireAndForget 0x03#8 [] s

/-- STOP (R93). -/
def execStop (s : State) : Result := fireAndForget 0x04#8 [] s

/-- PREVIOUS (R94). -/
def execPrevious (s : State) : Result := fireAndForget 0x05#8 [] s

/-- NEXT (R95). -/
def execNext (s : State) : Result := fireAndForget 0x06#8 [] s

/-- PREVIOUS_DIR_LAST (R96). -/
def execPreviousDirLast (s : State) : Result := fireAndForget 0x0E#8 [] s

/-- PREVIOUS_DIR_FIRST (R97). -/
def execPreviousDirFirst (s : State) : Result := fireAndForget 0x0F#8 [] s

/-- STOP_INTERLUDE (R98). -/
def execStopInterlude (s : State) : Result := fireAndForget 0x10#8 [] s

/-- VOLUME_UP (R99). -/
def execVolumeUp (s : State) : Result := fireAndForget 0x14#8 [] s

/-- VOLUME_DOWN (R100). -/
def execVolumeDown (s : State) : Result := fireAndForget 0x15#8 [] s

/-- END_COMBINATION_PLAY (R101). -/
def execEndCombinationPlay (s : State) : Result := fireAndForget 0x1C#8 [] s

end Sys2Proof.Machine
end

