-- ==== Sys2Proof/Machine/Dispatch.lean ====
section
/-! DEFINITION. The meaning of every command, one arm per constructor, in the order of
opcode_table.json (30_encoding.md R69). -/

namespace Sys2Proof.Machine

def exec (i : Instr) (s : State) : Host.Outcome State Fault Refusal :=
  match i with
  | .queryPlayState => Sys2Proof.Machine.execQueryPlayState s
  | .play => Sys2Proof.Machine.execPlay s
  | .pause => Sys2Proof.Machine.execPause s
  | .stop => Sys2Proof.Machine.execStop s
  | .previous => Sys2Proof.Machine.execPrevious s
  | .next => Sys2Proof.Machine.execNext s
  | .playByNumber n => Sys2Proof.Machine.execPlayByNumber n s
  | .playByPath d p => Sys2Proof.Machine.execPlayByPath d p s
  | .queryPlayingDevice => Sys2Proof.Machine.execQueryPlayingDevice s
  | .setDevice d => Sys2Proof.Machine.execSetDevice d s
  | .interludeByNumber d n => Sys2Proof.Machine.execInterludeByNumber d n s
  | .querySoundCount => Sys2Proof.Machine.execQuerySoundCount s
  | .queryPlayingSound => Sys2Proof.Machine.execQueryPlayingSound s
  | .previousDirLast => Sys2Proof.Machine.execPreviousDirLast s
  | .previousDirFirst => Sys2Proof.Machine.execPreviousDirFirst s
  | .stopInterlude => Sys2Proof.Machine.execStopInterlude s
  | .queryDirFirst => Sys2Proof.Machine.execQueryDirFirst s
  | .queryDirCount => Sys2Proof.Machine.execQueryDirCount s
  | .setVolume v => Sys2Proof.Machine.execSetVolume v s
  | .volumeUp => Sys2Proof.Machine.execVolumeUp s
  | .volumeDown => Sys2Proof.Machine.execVolumeDown s
  | .interludeByPath d p => Sys2Proof.Machine.execInterludeByPath d p s
  | .setCycleMode m => Sys2Proof.Machine.execSetCycleMode m s
  | .setCycleTimesW1 n => Sys2Proof.Machine.execSetCycleTimesW1 n s
  | .setCycleTimesW2 n => Sys2Proof.Machine.execSetCycleTimesW2 n s
  | .setEq e => Sys2Proof.Machine.execSetEq e s
  | .combinationPlay ts => Sys2Proof.Machine.execCombinationPlay ts s
  | .endCombinationPlay => Sys2Proof.Machine.execEndCombinationPlay s
  | .select n => Sys2Proof.Machine.execSelect n s

end Sys2Proof.Machine
end

