-- ==== Sys2Proof/Machine/Step.lean ====
section
/-! DEFINITION. One step: the host's next event. A command is latched from the port and executed as
one transaction (00_scope.md R7, 20_memory.md R48 (a), R50); a reset is applied; with nothing to do an
idle block stays as it is (70_reset_and_hazards.md R185). -/

namespace Sys2Proof.Machine

/-- The operand registers and S latched from the port (10_state.md R23, R24, 20_memory.md R50). -/
def latch (c : PortCmd) (s : State) : State :=
  { s with
    opsel := c.opsel, aDev := c.dev, aNum := c.num, aVal := c.val, aCnt := c.cnt
    stream := c.stream.take (streamLength c) }

/-- The command on the port, accepted and executed. -/
def runPort (c : PortCmd) (s : State) : Result :=
  match decodePort s.cfg.cycleW c with
  | .error .reservedOpsel => .refused .reservedOpsel
  | .error .streamStarved => .fault .streamStarved
  | .ok i => exec i (latch c s)

/-- One step (log 3, log 18). -/
def step (s : State) : Host.Outcome State Fault Refusal :=
  match s.host with
  | .reset straps :: rest => resetInput straps { s with host := rest }
  | .issue c :: rest => if s.busy then .fault .stuckBusy else runPort c { s with host := rest }
  | [] => if s.busy then .fault .stuckBusy else .next s

/-- The host's next event is the command of a word of the opcode table. The two rows of SET_CYCLE_TIMES
are told apart by the strap (30_encoding.md R71), which is set to the row's; a word that is no row's
is presented as a selector that selects nothing (log 3). -/
def State.withFetchWord (s : State) (nbits w : Nat) : State :=
  match decodeTableWord nbits w with
  | none => { s with host := .issue noCommand :: s.host }
  | some i =>
    match i with
    | .setCycleTimesW1 n =>
      { s with host := .issue (encodePort (.setCycleTimesW1 n)) :: s.host, cfg := { s.cfg with cycleW := .one } }
    | .setCycleTimesW2 n =>
      { s with host := .issue (encodePort (.setCycleTimesW2 n)) :: s.host, cfg := { s.cfg with cycleW := .two } }
    | i => { s with host := .issue (encodePort i) :: s.host }

end Sys2Proof.Machine
end

