-- ==== Sys2Proof/Machine/Sequencer.lean ====
section
/-! DEFINITION. The sequencer below the transaction: PHASE, IDX, ACC, PBUF, PLEN, S, RXBUF and RXCNT at
work inside one command (10_state.md R24, R27 to R30), one path byte encoded, one frame byte handed
over or one read made per tick (log 20). No rule's result depends on it (00_scope.md R7); it shows in
which order things happen (20_memory.md R43, R48), and that the registers of R22 suffice. -/

namespace Sys2Proof.Machine

/-- Where a command's payload comes from (30_encoding.md R62). -/
inductive PayloadSource where
  | empty    -- format Z
  | dev      -- format B: A.DEV
  | val      -- format B: A.VAL
  | cycle    -- format B or H by CFG.CYCLE_W: A.NUM (R71)
  | num      -- format H: A.NUM
  | devNum   -- format DH: A.DEV, A.NUM
  | devPath  -- format DP: PBUF, assembled in ENCODE (R29)
  | tokens   -- format T: S, streamed (44_combination_play.md R136)
  deriving DecidableEq, Repr

/-- What OPSEL selects: the opcode, the payload's source, and the class of the reply if the command is
a query (R69). -/
structure PortRow where
  opcode : Byte
  source : PayloadSource
  reply  : Option RespClass
  deriving DecidableEq, Repr

/-- The row of a selector (R69, R73); 28 to 31 select nothing (R72). -/
def portRow (opsel : Nat) : Option PortRow :=
  match opsel with
  | 0 => some ⟨0x01#8, .empty, some .resp8⟩  -- QUERY_PLAY_STATE
  | 1 => some ⟨0x02#8, .empty, none⟩  -- PLAY
  | 2 => some ⟨0x03#8, .empty, none⟩  -- PAUSE
  | 3 => some ⟨0x04#8, .empty, none⟩  -- STOP
  | 4 => some ⟨0x05#8, .empty, none⟩  -- PREVIOUS
  | 5 => some ⟨0x06#8, .empty, none⟩  -- NEXT
  | 6 => some ⟨0x07#8, .num, none⟩  -- PLAY_BY_NUMBER
  | 7 => some ⟨0x08#8, .devPath, none⟩  -- PLAY_BY_PATH
  | 8 => some ⟨0x0A#8, .empty, some .resp8⟩  -- QUERY_PLAYING_DEVICE
  | 9 => some ⟨0x0B#8, .dev, none⟩  -- SET_DEVICE
  | 10 => some ⟨0x0B#8, .devNum, none⟩  -- INTERLUDE_BY_NUMBER
  | 11 => some ⟨0x0C#8, .empty, some .resp16⟩  -- QUERY_SOUND_COUNT
  | 12 => some ⟨0x0D#8, .empty, some .resp16⟩  -- QUERY_PLAYING_SOUND
  | 13 => some ⟨0x0E#8, .empty, none⟩  -- PREVIOUS_DIR_LAST
  | 14 => some ⟨0x0F#8, .empty, none⟩  -- PREVIOUS_DIR_FIRST
  | 15 => some ⟨0x10#8, .empty, none⟩  -- STOP_INTERLUDE
  | 16 => some ⟨0x11#8, .empty, some .resp16⟩  -- QUERY_DIR_FIRST
  | 17 => some ⟨0x12#8, .empty, some .resp16⟩  -- QUERY_DIR_COUNT
  | 18 => some ⟨0x13#8, .val, none⟩  -- SET_VOLUME
  | 19 => some ⟨0x14#8, .empty, none⟩  -- VOLUME_UP
  | 20 => some ⟨0x15#8, .empty, none⟩  -- VOLUME_DOWN
  | 21 => some ⟨0x17#8, .devPath, none⟩  -- INTERLUDE_BY_PATH
  | 22 => some ⟨0x18#8, .val, none⟩  -- SET_CYCLE_MODE
  | 23 => some ⟨0x19#8, .cycle, none⟩  -- SET_CYCLE_TIMES
  | 24 => some ⟨0x1A#8, .val, none⟩  -- SET_EQ
  | 25 => some ⟨0x1B#8, .tokens, none⟩  -- COMBINATION_PLAY
  | 26 => some ⟨0x1C#8, .empty, none⟩  -- END_COMBINATION_PLAY
  | 27 => some ⟨0x1F#8, .num, none⟩  -- SELECT
  | _ => none

/-- The failure sentinel of the selected query (45_query_commands.md R150). -/
def sentinelOf (opsel : Nat) (par : Params) : Half :=
  match opsel with
  | 0 => zext16 par.psFail
  | 8 => zext16 par.devFail
  | _ => Config.countFail

/-- The payload length that the length byte announces (R62, R64). -/
def payloadLength (src : PayloadSource) (s : State) : Nat :=
  match src with
  | .empty => 0
  | .dev => 1
  | .val => 1
  | .cycle => (cyclePayload s.cfg.cycleW s.aNum).length
  | .num => 2
  | .devNum => 3
  | .devPath => s.plen.toNat
  | .tokens => 2 * s.aCnt.toNat

/-- The payload byte at a position: from the operand registers, from PBUF (U13: an unwritten position
is a fault), or the next byte of S (70 R195: without one the block is stuck). -/
def payloadByte (src : PayloadSource) (j : Nat) (s : State) : Except Fault Byte :=
  match src with
  | .empty => .error .unwrittenBuffer
  | .dev => .ok s.aDev
  | .val => .ok s.aVal
  | .cycle => .ok (byteAt (cyclePayload s.cfg.cycleW s.aNum) j)
  | .num => .ok (byteAt (numPayload s.aNum) j)
  | .devNum => .ok (byteAt (devNumPayload s.aDev s.aNum) j)
  | .devPath =>
    match s.pbuf.read j with
    | some b => .ok b
    | none => .error .unwrittenBuffer
  | .tokens =>
    match s.stream with
    | b :: _ => .ok b
    | [] => .error .streamStarved

/-- Streamed tokens are consumed from S as they are sent (R24). -/
def consume (src : PayloadSource) (s : State) : State :=
  match src with
  | .tokens => { s with stream := s.stream.tail }
  | .empty | .dev | .val | .cycle | .num | .devNum | .devPath => s

/-- Hand over one byte before the checksum: it joins TX and ACC, IDX moves on (R27, R28). -/
def emit (b : Byte) (s : State) : State :=
  { txWrite [b] s with acc := s.acc + b, idx := s.idx + 1#9 }

/-- After the checksum byte: READ for a query, else the command ends (R27). -/
def endWrite (reply : Option RespClass) (s : State) : State :=
  match reply with
  | none => finish 0x0000#16 s
  | some _ => { s with phase := .read }

/-- WRITE while the transport accepts: the byte at offset IDX of the frame (R60), in offset order (20_memory.md R48 (b)); the
checksum byte is ACC and ends the phase (R28). -/
def handOverTick (row : PortRow) (s : State) : Result :=
  if s.idx.toNat = 0 then .next (emit Config.header s)
  else if s.idx.toNat = 1 then .next (emit row.opcode s)
  else if s.idx.toNat = 2 then .next (emit (BitVec.ofNat 8 (payloadLength row.source s)) s)
  else if s.idx.toNat < 3 + payloadLength row.source s then
    match payloadByte row.source (s.idx.toNat - 3) s with
    | .error e => .fault e
    | .ok b => .next (emit b (consume row.source s))
  else .next (endWrite row.reply (txWrite [s.acc] s))

/-- WRITE: without acceptance of the byte the block is stuck (70 R192 (d), log 25). -/
def writeTick (row : PortRow) (s : State) : Result :=
  if writeReturns 1 s then handOverTick row s else .fault .writeNeverReturns

/-- ENCODE: consume one byte of S and append what it becomes to PBUF, behind the device byte
(R27, R29, 43_path_commands.md R120); when S is used up, WRITE. -/
def encodeTick (s : State) : Result :=
  match s.stream with
  | [] => .next { s with phase := .write }
  | c :: rest =>
    if s.plen = 0#8 then
      .next { s with stream := rest, pbuf := s.pbuf.writeList 0 [s.aDev, c], plen := 2#8 }
    else
      .next { s with
        stream := rest
        pbuf := s.pbuf.writeList s.plen.toNat (escapeByte s.cfg.pathUpper c)
        plen := s.plen + BitVec.ofNat 8 (escapeByte s.cfg.pathUpper c).length }

/-- READ: the one read of a query (R27, 45 R145); without an answer the block is stuck (70 R192 (b)). -/
def readTick (cls : RespClass) (sentinel : Half) (s : State) : Result :=
  match nextAnswer (cls.readLength s.par) s with
  | .never => .fault .readNeverReturns
  | .bytes _ => .next (readPhase cls sentinel s)

/-- One tick of the sequencer. An idle block does nothing. -/
def tick (s : State) : Result :=
  match s.phase with
  | .idle => .next s
  | .encode => encodeTick s
  | .write =>
    match portRow s.opsel.toNat with
    | none => .refused .reservedOpsel
    | some row => writeTick row s
  | .read =>
    match portRow s.opsel.toNat with
    | none => .refused .reservedOpsel
    | some row =>
      match row.reply with
      | none => .next (finish 0x0000#16 s)
      | some cls => readTick cls (sentinelOf s.opsel.toNat s.par) s

/-- A number of ticks. -/
def ticks (n : Nat) (s : State) : Result :=
  match n with
  | 0 => .next s
  | k + 1 => andThen (tick s) (ticks k)

/-- The phase an accepted command starts in (R27): a silent no-op ends at once, a path is encoded
first, every other command is written. -/
def firstPhase (i : Instr) (s : State) : State :=
  match i with
  | .playByPath _ [] | .interludeByPath _ [] | .combinationPlay [] => finish 0x0000#16 s
  | .playByPath _ (_ :: _) | .interludeByPath _ (_ :: _) => { s with phase := .encode }
  | .combinationPlay (_ :: _)
  | .play | .pause | .stop | .previous | .next | .previousDirLast | .previousDirFirst
  | .stopInterlude | .volumeUp | .volumeDown | .endCombinationPlay
  | .queryPlayState | .queryPlayingDevice | .querySoundCount | .queryPlayingSound
  | .queryDirFirst | .queryDirCount
  | .playByNumber _ | .select _ | .setDevice _ | .setVolume _ | .setCycleMode _ | .setEq _
  | .setCycleTimesW1 _ | .setCycleTimesW2 _ | .interludeByNumber _ _ => { s with phase := .write }

/-- Acceptance of the command on the port (R85): not while BUSY = 1 (70 R189), and only inside the
admitted domain (00_scope.md R11). -/
def acceptPort (c : PortCmd) (s : State) : Result :=
  if s.busy then .fault .stuckBusy
  else
    match decodePort s.cfg.cycleW c with
    | .error .reservedOpsel => .refused .reservedOpsel
    | .error .streamStarved => .fault .streamStarved
    | .ok i =>
      match admission s.cfg i with
      | some r => .refused r
      | none => .next (firstPhase i (accept (latch c s)))

end Sys2Proof.Machine
end

