-- ==== Sys2Proof/Safety.lean ====
section
/-! DEFINITION. The words the claims are stated in: what a command leaves alone, how a command ends,
the frames that may stand in the TX history, a well-formed response as a premise about the
transport, and the invariant of a run. -/

namespace Sys2Proof

open Machine

/-- The six queries (00_scope.md R12). -/
def Instr.isQuery (i : Instr) : Bool :=
  match i with
  | .queryPlayState | .queryPlayingDevice | .querySoundCount | .queryPlayingSound
  | .queryDirFirst | .queryDirCount => true
  | .play | .pause | .stop | .previous | .next | .previousDirLast | .previousDirFirst
  | .stopInterlude | .volumeUp | .volumeDown | .endCombinationPlay
  | .playByNumber _ | .select _ | .setDevice _ | .setVolume _ | .setCycleMode _ | .setEq _
  | .setCycleTimesW1 _ | .setCycleTimesW2 _ | .interludeByNumber _ _
  | .playByPath _ _ | .interludeByPath _ _ | .combinationPlay _ => false

/-- The two silent no-ops (60_exceptions.md R168). -/
def Instr.isNoOp (i : Instr) : Bool :=
  match i with
  | .playByPath _ [] | .interludeByPath _ [] | .combinationPlay [] => true
  | _ => false

/-- The class of a query's reply (30_encoding.md R69); of use for the six queries only. -/
def Instr.queryClass (i : Instr) : RespClass :=
  match i with
  | .queryPlayState | .queryPlayingDevice => .resp8
  | _ => .resp16

/-- The failure sentinel of a query (45 R150); of use for the six queries only. -/
def Instr.sentinel (i : Instr) (par : Params) : Half :=
  match i with
  | .queryPlayState => zext16 par.psFail
  | .queryPlayingDevice => zext16 par.devFail
  | _ => 0x0000#16

/-- The row of opcode_table.json by which an instance of this width sends the command: SET_CYCLE_TIMES
has one per width (30_encoding.md R71), every other command has one row. -/
def Instr.rowAt (w : CycleWidth) (i : Instr) : Instr :=
  match i with
  | .setCycleTimesW1 n | .setCycleTimesW2 n =>
    match w with
    | .one => .setCycleTimesW1 n
    | .two => .setCycleTimesW2 n
  | i => i

/-- A path that the decoder reads back from its frame: behind the leading byte no `'*'`, which is read as
the `'.'` that gives it too (43_path_commands.md R120), and no letter that is folded (R121). Of the paths
with one frame it is the one that the model chose to read (log 21). -/
def Instr.readBack (upper : Bool) (i : Instr) : Prop :=
  match i with
  | .playByPath _ p | .interludeByPath _ p => ∀ c ∈ p.tail, c ≠ star ∧ fold c upper = c
  | _ => True

end Sys2Proof

namespace Sys2Proof.Machine

/-- What every command leaves alone: the operand registers (40_checksum_and_frame.md R88), the
configuration and the parameters (10_state.md R31, R32), and the host's plan. -/
structure Kept (s t : State) : Prop where
  opsel : t.opsel = s.opsel
  aDev  : t.aDev = s.aDev
  aNum  : t.aNum = s.aNum
  aVal  : t.aVal = s.aVal
  aCnt  : t.aCnt = s.aCnt
  cfg   : t.cfg = s.cfg
  par   : t.par = s.par
  host  : t.host = s.host

/-- No read was made (40 R86): nothing was taken from the transport and the RX history is as before. -/
structure NoRead (s t : State) : Prop where
  answers : t.answers = s.answers
  reads   : t.reads = s.reads
  rx      : t.rx = s.rx

/-- A fire-and-forget command has ended with the bytes `f` handed over (R85, R86, R25, R26, R27). -/
structure Fired (f : List Byte) (s t : State) : Prop where
  tx     : t.tx = s.tx ++ f
  result : t.result = 0x0000#16
  err    : t.err = .none
  busy   : t.busy = false
  phase  : t.phase = .idle
  kept   : Kept s t
  noRead : NoRead s t

/-- A command waits for ever in WRITE: of its frame `f` the transport accepted `k` bytes and accepts no more
(70_reset_and_hazards.md R192 (d), log 25). RESULT and ERR are as they were, and no read was made. -/
structure Stalled (f : List Byte) (k : Nat) (s t : State) : Prop where
  tx     : t.tx = s.tx ++ f.take k
  idx    : t.idx.toNat = k
  acc    : t.acc = checksum (f.take k)
  busy   : t.busy = true
  phase  : t.phase = .write
  result : t.result = s.result
  err    : t.err = s.err
  room   : t.txRoom = some 0
  kept   : Kept s t
  noRead : NoRead s t

/-- A query has ended with RESULT and ERR, its constant frame `f` handed over before its one read of
`n` bytes, which obtained `got` (R85, 45_query_commands.md R145). -/
structure Queried (f : List Byte) (n : Nat) (got : List Byte) (value : Half) (e : Err) (s t : State) : Prop where
  tx      : t.tx = s.tx ++ f
  result  : t.result = value
  err     : t.err = e
  busy    : t.busy = false
  phase   : t.phase = .idle
  rx      : t.rx = s.rx ++ [{ want := n, got := got }]
  answers : t.answers = s.answers.tail
  reads   : t.reads = s.reads + 1
  stream  : t.stream = s.stream
  kept    : Kept s t

/-- A complete frame that some row of the opcode table covers (30 R60, R70, R72, R78). -/
def CatalogFrame (f : List Byte) : Prop :=
  ∃ op p, p.length ≤ 255 ∧ f = frameBody op p ++ [checksum (frameBody op p)] ∧
    opcodeTable.any (fun r => r.covers f) = true

/-- A TX history that is the concatenation of complete catalog frames (20_memory.md R48 (a)) and, while a
write waits for ever, the part of one more that the transport accepted (70 R192 (d)). -/
def WireHistory (tx : List Byte) (waiting : Bool) : Prop :=
  ∃ (fs : List (List Byte)) (part : List Byte), tx = fs.flatten ++ part ∧ (∀ f ∈ fs, CatalogFrame f) ∧
    if waiting then ∃ f, CatalogFrame f ∧ part <+: f ∧ part.length < f.length else part = []

/-- The well-formed `RESP8` response to the query with opcode `op` carrying `v` (30 R67). -/
def wellFormedResp8 (op v : Byte) : List Byte :=
  [0xAA#8, op, 0x01#8, v, checksum [0xAA#8, op, 0x01#8, v]]

/-- The well-formed `RESP16` response to the query with opcode `op` carrying `v` (30 R67). -/
def wellFormedResp16 (op : Byte) (v : Half) : List Byte :=
  [0xAA#8, op, 0x02#8, hi v, lo v, checksum [0xAA#8, op, 0x02#8, hi v, lo v]]

/-- The invariant of a run: the block is idle, or waits for ever in READ or in WRITE for a transport that
accepts nothing (10_state.md R27, 70 R192); the buffers are canonical and within their bounds (R29,
R30); IDX is within its (R27), and so is RXCNT while RLEN8 fits RXBUF (R30, log 6); every answered
request asked for RLEN8 or RLEN16 bytes and got no more (20_memory.md R42, 45 R149); and the TX history is
a concatenation of complete catalog frames, with a part of one more only while a write waits. -/
structure State.Inv (s : State) : Prop where
  settled   : (s.busy = false ∧ s.phase = .idle) ∨ (s.busy = true ∧ s.phase = .read) ∨
    (s.busy = true ∧ s.phase = .write ∧ s.txRoom = some 0)
  pbufWf    : s.pbuf.wf
  pbufBound : ∀ c ∈ s.pbuf, c.1 < 255
  rxbufWf   : s.rxbuf.wf
  rxbufBound : ∀ c ∈ s.rxbuf, c.1 < 6
  idxBound  : s.idx.toNat ≤ 258
  rxcntBound : s.par.rlen8 ≤ 6 → s.rxcnt.toNat ≤ 6
  rxBound   : ∀ r ∈ s.rx, (r.want = s.par.rlen8 ∨ r.want = 6) ∧ r.got.length ≤ r.want
  wire      : WireHistory s.tx (s.phase == .write)

end Sys2Proof.Machine
end

