-- ==== Sys2Proof/Certificates/Slice0/Obligations.lean ====
section
/-! DEFINITION. The statements for the provers, from the numbered rules of spec/. -/

open Sys2Proof Sys2Proof.Machine

/-! ### Checksum, frame, validation -/

/-- R80: the checksum is the sum of the bytes as naturals, modulo 256. -/
def Obligations.ChecksumIsSumModulo256 : Prop :=
  ∀ bs : List Byte, (checksum bs).toNat = (bs.map BitVec.toNat).sum % 256

/-- R81, (a) to (f): empty sum, concatenation and the running form, order, a single changed byte,
compensating changes, wrap-around. -/
def Obligations.ChecksumLaws : Prop :=
  checksum [] = 0#8 ∧
  (∀ a b : List Byte, checksum (a ++ b) = checksum a + checksum b) ∧
  (∀ bs : List Byte, runningSum 0#8 bs = checksum bs) ∧
  (∀ a b : List Byte, a.Perm b → checksum a = checksum b) ∧
  (∀ (a b : List Byte) (c d : Byte),
    checksum (a ++ (c + d) :: b) = checksum (a ++ c :: b) + d) ∧
  (∀ (a b : List Byte) (c d : Byte), d ≠ 0#8 →
    checksum (a ++ (c + d) :: b) ≠ checksum (a ++ c :: b)) ∧
  (∀ (a b e : List Byte) (x y d : Byte),
    checksum (a ++ (x + d) :: b ++ (y - d) :: e) = checksum (a ++ x :: b ++ y :: e)) ∧
  checksum [0xFF#8, 0x01#8] = 0x00#8 ∧
  checksum (List.replicate 256 0x01#8) = 0x00#8

/-- R82: the frame of an opcode and a payload of at most 255 bytes; beyond, no frame and a refusal. -/
def Obligations.FrameIsPrefixPayloadChecksum : Prop :=
  ∀ (op : Byte) (p : List Byte),
    (p.length ≤ 255 →
      ∃ f, buildFrame op p = some f ∧
        f = [0xAA#8, op, BitVec.ofNat 8 p.length] ++ p
          ++ [checksum ([0xAA#8, op, BitVec.ofNat 8 p.length] ++ p)] ∧
        f.length = p.length + 4) ∧
    (255 < p.length → buildFrame op p = none ∧ ∀ k s, sendFrame op p k s = .refused .payloadTooLong)

/-- R146: a response is valid exactly when its last byte is the checksum of the others; flipping any
one bit of a valid response, its checksum byte included, makes it invalid; all zeros are valid. -/
def Obligations.ValidationDetectsEverySingleBitFlip : Prop :=
  (∀ (bs : List Byte) (c : Byte), validate (bs ++ [c]) = true ↔ c = checksum bs) ∧
  (∀ (a b : List Byte) (c : Byte) (k : Nat), k < 8 → validate (a ++ c :: b) = true →
    validate (a ++ (c ^^^ BitVec.ofNat 8 (2 ^ k)) :: b) = false) ∧
  (∀ n : Nat, validate (List.replicate (n + 1) 0#8) = true)

/-- R41: a write that returns has placed all its bytes, in order, on the TX history; it changes nothing
else of the block and cannot fail (it answers a state); two writes in a row are one write of the
concatenation. How much the transport accepts after it is no matter of the rule (log 25). -/
def Obligations.SplitWritesAreOneWrite : Prop :=
  ∀ (a b : List Byte) (s : State),
    (writeReturns a.length s = true →
      txWrite a s = { s with tx := s.tx ++ a, txRoom := (txWrite a s).txRoom }) ∧
    txWrite b (txWrite a s) = txWrite (a ++ b) s

/-! ### Reset -/

/-- R33, R185, R186 (the spec's own choice, its decision D10): the values the spec gives for reset.
The operand registers are left out: the spec gives them none (log 8). A buffer position that the spec
leaves unspecified has no value (log 9). -/
def Obligations.ResetStateIsAsSpecified : Prop :=
  State.reset.phase = .idle ∧ State.reset.busy = false ∧ State.reset.idx = 0#9 ∧
  State.reset.acc = 0#8 ∧ State.reset.plen = 0#8 ∧ State.reset.rxcnt = 0#3 ∧
  State.reset.result = 0x0000#16 ∧ State.reset.err = .none ∧ State.reset.stream = [] ∧
  State.reset.cfg = Config.straps ∧
  (∀ a, State.reset.pbuf.read a = none ∧ State.reset.rxbuf.read a = none) ∧
  State.reset.tx = [] ∧ State.reset.rx = []

/-- R185, R186 (the spec's own choice, D10): reset while idle samples the straps, clears the registers
and the histories, sends nothing, reads nothing and flushes nothing. What it keeps is the model's
choice (log 19). -/
def Obligations.ResetInputWhileIdle : Prop :=
  ∀ (s : State) (straps : Straps) (rest : List HostEvent),
    s.host = .reset straps :: rest → s.busy = false →
    ∃ t, step s = .next t ∧
      t.cfg = straps ∧ t.phase = .idle ∧ t.busy = false ∧ t.idx = 0#9 ∧ t.acc = 0#8 ∧
      t.plen = 0#8 ∧ t.rxcnt = 0#3 ∧ t.result = 0x0000#16 ∧ t.err = .none ∧ t.stream = [] ∧
      (∀ a, t.pbuf.read a = none ∧ t.rxbuf.read a = none) ∧
      t.tx = [] ∧ t.rx = [] ∧
      t.par = s.par ∧ t.answers = s.answers ∧ t.reads = s.reads ∧ t.txRoom = s.txRoom ∧ t.host = rest

/-- R187 (the spec's decision D19): reset while a command is in progress is refused by name. -/
def Obligations.ResetWhileBusyIsRefused : Prop :=
  ∀ (s : State) (straps : Straps) (rest : List HostEvent),
    s.host = .reset straps :: rest → s.busy = true → step s = .refused .resetWhileBusy

/-! ### Fire-and-forget commands: completion, result, frame -/

/-- R90 to R101: each zero-payload command ends with its constant frame handed over, RESULT 0 and ERR
NONE, provided its write returns (R192 (c)); nothing else of the block's visible state changes and S is
not read. -/
def Obligations.ZeroPayloadCommandsSendTheirFrames : Prop :=
  ∀ (s : State) (e : Instr × List Byte), e ∈
    [ (Instr.play, [0xAA#8, 0x02#8, 0x00#8, 0xAC#8]),
      (Instr.pause, [0xAA#8, 0x03#8, 0x00#8, 0xAD#8]),
      (Instr.stop, [0xAA#8, 0x04#8, 0x00#8, 0xAE#8]),
      (Instr.previous, [0xAA#8, 0x05#8, 0x00#8, 0xAF#8]),
      (Instr.next, [0xAA#8, 0x06#8, 0x00#8, 0xB0#8]),
      (Instr.previousDirLast, [0xAA#8, 0x0E#8, 0x00#8, 0xB8#8]),
      (Instr.previousDirFirst, [0xAA#8, 0x0F#8, 0x00#8, 0xB9#8]),
      (Instr.stopInterlude, [0xAA#8, 0x10#8, 0x00#8, 0xBA#8]),
      (Instr.volumeUp, [0xAA#8, 0x14#8, 0x00#8, 0xBE#8]),
      (Instr.volumeDown, [0xAA#8, 0x15#8, 0x00#8, 0xBF#8]),
      (Instr.endCombinationPlay, [0xAA#8, 0x1C#8, 0x00#8, 0xC6#8]) ] →
    writeReturns 4 s = true →
    ∃ t, exec e.1 s = .next t ∧ Fired e.2 s t ∧ t.stream = s.stream

/-- R106, R107, R113: the number commands, for every operand, provided the write returns (R192 (c)): high
byte first, device byte before the number, checksum modulo 256. -/
def Obligations.NumberCommandsSendBigEndian : Prop :=
  ∀ (s : State) (d : Byte) (n : Half),
    (writeReturns 6 s = true → ∃ t, exec (.playByNumber n) s = .next t ∧
      Fired [0xAA#8, 0x07#8, 0x02#8, BitVec.ofNat 8 (n.toNat / 256), BitVec.ofNat 8 (n.toNat % 256),
        BitVec.ofNat 8 (0xAA + 0x07 + 0x02 + n.toNat / 256 + n.toNat % 256)] s t ∧
      t.stream = s.stream) ∧
    (writeReturns 6 s = true → ∃ t, exec (.select n) s = .next t ∧
      Fired [0xAA#8, 0x1F#8, 0x02#8, BitVec.ofNat 8 (n.toNat / 256), BitVec.ofNat 8 (n.toNat % 256),
        BitVec.ofNat 8 (0xAA + 0x1F + 0x02 + n.toNat / 256 + n.toNat % 256)] s t ∧
      t.stream = s.stream) ∧
    (writeReturns 7 s = true → ∃ t, exec (.interludeByNumber d n) s = .next t ∧
      Fired [0xAA#8, 0x0B#8, 0x03#8, d, BitVec.ofNat 8 (n.toNat / 256), BitVec.ofNat 8 (n.toNat % 256),
        BitVec.ofNat 8 (0xAA + 0x0B + 0x03 + d.toNat + n.toNat / 256 + n.toNat % 256)] s t ∧
      t.stream = s.stream)

/-- R108, R109, R111, R112: the one-byte commands send every byte value unchanged, provided the write
returns (R192 (c)). That the volume's documented range is not enforced is the spec's decision D15. -/
def Obligations.ByteCommandsSendAnyByte : Prop :=
  ∀ (s : State) (v : Byte) (e : Instr × Byte), e ∈
    [ (Instr.setVolume v, 0x13#8), (Instr.setCycleMode v, 0x18#8), (Instr.setEq v, 0x1A#8),
      (Instr.setDevice v, 0x0B#8) ] →
    writeReturns 5 s = true →
    ∃ t, exec e.1 s = .next t ∧
      Fired [0xAA#8, e.2, 0x01#8, v, BitVec.ofNat 8 (0xAA + e.2.toNat + 0x01 + v.toNat)] s t ∧
      t.stream = s.stream

/-- R110: SET_CYCLE_TIMES by its configured width, both rows being the one operation (R71), provided the
write returns (R192 (c)): one byte for a count up to 255, refused above (the spec's decision D25); two
bytes, high first, for every count. That both rows do so is the model's reading (log 1). -/
def Obligations.SetCycleTimesFollowsTheConfiguredWidth : Prop :=
  ∀ (s : State) (n : Half) (i : Instr), i ∈ [Instr.setCycleTimesW1 n, Instr.setCycleTimesW2 n] →
    (s.cfg.cycleW = .one → n.toNat ≤ 255 → writeReturns 5 s = true →
      ∃ t, exec i s = .next t ∧
        Fired [0xAA#8, 0x19#8, 0x01#8, BitVec.ofNat 8 n.toNat,
          BitVec.ofNat 8 (0xAA + 0x19 + 0x01 + n.toNat)] s t ∧
        t.stream = s.stream) ∧
    (s.cfg.cycleW = .one → 255 < n.toNat → exec i s = .refused .cycleTimesTooWide) ∧
    (s.cfg.cycleW = .two → writeReturns 6 s = true →
      ∃ t, exec i s = .next t ∧
        Fired [0xAA#8, 0x19#8, 0x02#8, BitVec.ofNat 8 (n.toNat / 256), BitVec.ofNat 8 (n.toNat % 256),
          BitVec.ofNat 8 (0xAA + 0x19 + 0x02 + n.toNat / 256 + n.toNat % 256)] s t ∧
        t.stream = s.stream)

/-- R125 to R127: a path command with an absolute path that fits sends device byte and encoded path,
provided the write returns (R192 (c)); PBUF and PLEN hold the payload, S is consumed, RXBUF is not written. That the buffers hold nothing
else, and what S holds afterwards, are the model's choice (log 9, log 10, log 24). -/
def Obligations.PathCommandsSendDeviceAndEncodedPath : Prop :=
  ∀ (s : State) (d : Byte) (rest : List Byte) (e : Instr × Byte), e ∈
    [ (Instr.playByPath d (slash :: rest), 0x08#8), (Instr.interludeByPath d (slash :: rest), 0x17#8) ] →
    (encodePath (slash :: rest) s.cfg.pathUpper).length ≤ 254 →
    writeReturns (5 + (encodePath (slash :: rest) s.cfg.pathUpper).length) s = true →
    ∃ t, exec e.1 s = .next t ∧
      Fired
        ([0xAA#8, e.2, BitVec.ofNat 8 (1 + (encodePath (slash :: rest) s.cfg.pathUpper).length), d]
          ++ encodePath (slash :: rest) s.cfg.pathUpper
          ++ [checksum ([0xAA#8, e.2,
                BitVec.ofNat 8 (1 + (encodePath (slash :: rest) s.cfg.pathUpper).length), d]
              ++ encodePath (slash :: rest) s.cfg.pathUpper)]) s t ∧
      t.stream = [] ∧
      t.plen.toNat = 1 + (encodePath (slash :: rest) s.cfg.pathUpper).length ∧
      (∀ j, t.pbuf.read j = (d :: encodePath (slash :: rest) s.cfg.pathUpper)[j]?) ∧
      (∀ j, t.rxbuf.read j = none)

/-- R123: the empty path sends nothing, reads nothing and signals nothing, whatever the device byte. -/
def Obligations.EmptyPathIsASilentNoOp : Prop :=
  ∀ (s : State) (d : Byte) (i : Instr), i ∈ [Instr.playByPath d [], Instr.interludeByPath d []] →
    ∃ t, exec i s = .next t ∧ Fired [] s t ∧ t.stream = s.stream

/-- R124: a path that does not begin with `'/'` is refused, and so is one whose payload exceeds 255
bytes (both the spec's decision D14); 127 bytes or fewer always fit and 255 never do. -/
def Obligations.PathRefusals : Prop :=
  (∀ (s : State) (d c : Byte) (rest : List Byte) (i : Instr),
    i ∈ [Instr.playByPath d (c :: rest), Instr.interludeByPath d (c :: rest)] →
    (c ≠ slash → exec i s = .refused .pathNotAbsolute) ∧
    (c = slash → 254 < (encodePath (c :: rest) s.cfg.pathUpper).length →
      exec i s = .refused .payloadTooLong)) ∧
  (∀ (p : List Byte) (upper : Bool), p.length ≤ 127 → (encodePath p upper).length ≤ 254) ∧
  (∀ (p : List Byte) (upper : Bool), p.length = 255 → 254 < (encodePath p upper).length)

/-- R122: the length of an encoded path and its bounds. -/
def Obligations.EncodedPathLength : Prop :=
  ∀ (p : List Byte) (upper : Bool), 1 ≤ p.length →
    (encodePath p upper).length = 1 + (p.length - 1) + p.tail.count slash ∧
    p.length ≤ (encodePath p upper).length ∧
    (encodePath p upper).length ≤ 2 * p.length - 1 ∧
    ∀ d, (pathPayload d p upper).length = 1 + (encodePath p upper).length

/-- R121: only `a` to `z` (the spec's reading, D16) are folded, and only when configured; folding
neither makes nor removes a `'.'` or a `'/'`, so folding before escaping is the same, and the length
does not depend on it. -/
def Obligations.FoldingIsIndependentOfEscaping : Prop :=
  (∀ c : Byte, fold c false = c) ∧
  (∀ c : Byte, 0x61 ≤ c.toNat → c.toNat ≤ 0x7A → (fold c true).toNat = c.toNat - 0x20) ∧
  (∀ c : Byte, c.toNat < 0x61 ∨ 0x7A < c.toNat → fold c true = c) ∧
  (∀ (c : Byte) (u : Bool), (fold c u = dot ↔ c = dot) ∧ (fold c u = slash ↔ c = slash)) ∧
  (∀ (c : Byte) (u : Bool), escapeByte false (fold c u) = escapeByte u c) ∧
  (∀ p : List Byte, (encodePath p true).length = (encodePath p false).length)

/-- R120: the leading byte stays; behind it no `'.'` is left and every `'/'` follows a `'*'`. -/
def Obligations.EncodedPathIsEscaped : Prop :=
  ∀ (p : List Byte) (upper : Bool),
    (encodePath p upper).head? = p.head? ∧
    ∀ (a b : List Byte) (x y : Byte), encodePath p upper = a ++ x :: y :: b →
      y ≠ dot ∧ (y = slash → x = star)

/-- R127: on the same operands, where the write returns (R192 (c)), the two path commands differ in the
opcode byte and, by 0x0F, in the checksum byte, and in nothing else they send. -/
def Obligations.InterludeFrameDiffersByOpcode : Prop :=
  ∀ (s : State) (d : Byte) (rest : List Byte),
    (encodePath (slash :: rest) s.cfg.pathUpper).length ≤ 254 →
    writeReturns (5 + (encodePath (slash :: rest) s.cfg.pathUpper).length) s = true →
    ∃ t u body c, exec (.playByPath d (slash :: rest)) s = .next t ∧
      exec (.interludeByPath d (slash :: rest)) s = .next u ∧
      t.tx = s.tx ++ 0xAA#8 :: 0x08#8 :: body ++ [c] ∧
      u.tx = s.tx ++ 0xAA#8 :: 0x17#8 :: body ++ [c + 0x0F#8]

/-- R136, R137: 1 to 127 tokens are streamed behind the prefix with the running checksum last, provided
the write returns (R192 (c)); the bytes are those of the frame builder on the token bytes, S is consumed and ACC is the byte sent (what
stays in S, ACC and the buffers is the model's choice: log 10, log 11, log 24). -/
def Obligations.CombinationPlayStreamsItsFrame : Prop :=
  ∀ (s : State) (ts : List Token), 1 ≤ ts.length → ts.length ≤ 127 →
    writeReturns (2 * ts.length + 4) s = true →
    ∃ t f, exec (.combinationPlay ts) s = .next t ∧ buildFrame 0x1B#8 (tokenBytes ts) = some f ∧
      f = [0xAA#8, 0x1B#8, BitVec.ofNat 8 (2 * ts.length)] ++ tokenBytes ts ++ [t.acc] ∧
      Fired f s t ∧ t.stream = [] ∧ ∀ j, t.pbuf.read j = none ∧ t.rxbuf.read j = none

/-- R138: the empty token list sends nothing, not even the prefix. -/
def Obligations.EmptyTokenListIsASilentNoOp : Prop :=
  ∀ s : State, ∃ t, exec (.combinationPlay []) s = .next t ∧ Fired [] s t ∧ t.stream = s.stream

/-- R139: more than 127 tokens are refused (the spec's decision D14). -/
def Obligations.TooManyTokensAreRefused : Prop :=
  ∀ (s : State) (ts : List Token), 128 ≤ ts.length →
    exec (.combinationPlay ts) s = .refused .tooManyTokens

/-! ### Queries -/

/-- R152, R153: an 8-bit query sends its constant frame, makes one read of RLEN8 bytes and ends with
the byte at offset 3, or on a short read or a wrong checksum with its sentinel and the error, provided
its write returns (R192 (c)). A response of fewer than 4 bytes has no byte at offset 3; the next statement
is about it. -/
def Obligations.EightBitQueriesReadAndDecode : Prop :=
  ∀ (s : State) (bs : List Byte) (e : Instr × Byte × Byte × Byte), e ∈
    [ (Instr.queryPlayState, 0x01#8, 0xAB#8, s.par.psFail),
      (Instr.queryPlayingDevice, 0x0A#8, 0xB4#8, s.par.devFail) ] →
    writeReturns 4 s = true → nextAnswer s.par.rlen8 s = .bytes bs →
    ∃ t, exec e.1 s = .next t ∧
      (bs.length < s.par.rlen8 →
        Queried [0xAA#8, e.2.1, 0x00#8, e.2.2.1] s.par.rlen8 bs (zext16 e.2.2.2) .comm s t) ∧
      (1 ≤ s.par.rlen8 → s.par.rlen8 ≤ bs.length → validate (bs.take s.par.rlen8) = false →
        Queried [0xAA#8, e.2.1, 0x00#8, e.2.2.1] s.par.rlen8 (bs.take s.par.rlen8)
          (zext16 e.2.2.2) .csum s t) ∧
      (4 ≤ s.par.rlen8 → s.par.rlen8 ≤ bs.length → validate (bs.take s.par.rlen8) = true →
        ∃ v, bs[3]? = some v ∧
          Queried [0xAA#8, e.2.1, 0x00#8, e.2.2.1] s.par.rlen8 (bs.take s.par.rlen8)
            (BitVec.ofNat 16 v.toNat) .none s t)

/-- R6, R147, where RLEN8 is less than 4 and the response has no byte at offset 3: an 8-bit query runs all
the same, and the value of a valid response is a byte of which nothing is known; with RLEN8 = 0 nothing is
known of the verdict either. Both free values are the model's form (log 6). -/
def Obligations.EightBitQueriesWithoutADataByte : Prop :=
  ∀ (s : State) (bs : List Byte) (e : Instr × Byte × Byte × Byte), e ∈
    [ (Instr.queryPlayState, 0x01#8, 0xAB#8, s.par.psFail),
      (Instr.queryPlayingDevice, 0x0A#8, 0xB4#8, s.par.devFail) ] →
    writeReturns 4 s = true → nextAnswer s.par.rlen8 s = .bytes bs →
    s.par.rlen8 < 4 → s.par.rlen8 ≤ bs.length →
    ∃ t v, exec e.1 s = .next t ∧
      (1 ≤ s.par.rlen8 → validate (bs.take s.par.rlen8) = true →
        Queried [0xAA#8, e.2.1, 0x00#8, e.2.2.1] s.par.rlen8 (bs.take s.par.rlen8) (zext16 v) .none s t) ∧
      (s.par.rlen8 = 0 →
        Queried [0xAA#8, e.2.1, 0x00#8, e.2.2.1] 0 [] (zext16 v) .none s t ∨
        Queried [0xAA#8, e.2.1, 0x00#8, e.2.2.1] 0 [] (zext16 e.2.2.2) .csum s t)

/-- R154 to R157: a 16-bit query sends its constant frame, makes one read of 6 bytes and ends with the
big-endian value at offsets 3 and 4, or on a short read or a wrong checksum with 0 and the error,
provided its write returns (R192 (c)). -/
def Obligations.SixteenBitQueriesReadAndDecode : Prop :=
  ∀ (s : State) (bs : List Byte) (e : Instr × Byte × Byte), e ∈
    [ (Instr.querySoundCount, 0x0C#8, 0xB6#8), (Instr.queryPlayingSound, 0x0D#8, 0xB7#8),
      (Instr.queryDirFirst, 0x11#8, 0xBB#8), (Instr.queryDirCount, 0x12#8, 0xBC#8) ] →
    writeReturns 4 s = true → nextAnswer 6 s = .bytes bs →
    ∃ t, exec e.1 s = .next t ∧
      (bs.length < 6 → Queried [0xAA#8, e.2.1, 0x00#8, e.2.2] 6 bs 0x0000#16 .comm s t) ∧
      (6 ≤ bs.length → validate (bs.take 6) = false →
        Queried [0xAA#8, e.2.1, 0x00#8, e.2.2] 6 (bs.take 6) 0x0000#16 .csum s t) ∧
      (6 ≤ bs.length → validate (bs.take 6) = true →
        ∃ h l, bs[3]? = some h ∧ bs[4]? = some l ∧
          Queried [0xAA#8, e.2.1, 0x00#8, e.2.2] 6 (bs.take 6)
            (BitVec.ofNat 16 (256 * h.toNat + l.toNat)) .none s t)

/-- R66 (derived by the spec from R146): the first three bytes of a response play no part: a
full-length response with a matching checksum is decoded whatever they are, at the response lengths that
the spec names (RLEN8 at its default 5), and provided the write returns (R192 (c)). -/
def Obligations.ResponseHeaderIsNotChecked : Prop :=
  ∀ (s : State) (a b c h l : Byte) (rest : List RxAnswer), writeReturns 4 s = true →
    (∀ i ∈ [Instr.querySoundCount, Instr.queryPlayingSound, Instr.queryDirFirst, Instr.queryDirCount],
      ∃ t, exec i { s with answers := .bytes [a, b, c, h, l, checksum [a, b, c, h, l]] :: rest } = .next t ∧
        t.result.toNat = 256 * h.toNat + l.toNat ∧ t.err = .none) ∧
    (s.par.rlen8 = 5 → ∀ i ∈ [Instr.queryPlayState, Instr.queryPlayingDevice],
      ∃ t, exec i { s with answers := .bytes [a, b, c, h, checksum [a, b, c, h]] :: rest } = .next t ∧
        t.result.toNat = h.toNat ∧ t.err = .none)

/-- R67 (its offset 2 is the spec's inference, D7) as a premise about the transport: the well-formed
response yields the value it carries, provided the write returns (R192 (c)). -/
def Obligations.WellFormedResponseYieldsItsValue : Prop :=
  ∀ (s : State) (op v : Byte) (n : Half), writeReturns 4 s = true →
    (∀ i ∈ [Instr.querySoundCount, Instr.queryPlayingSound, Instr.queryDirFirst, Instr.queryDirCount],
      nextAnswer 6 s = .bytes (wellFormedResp16 op n) →
      ∃ t, exec i s = .next t ∧ t.result = n ∧ t.err = .none) ∧
    (s.par.rlen8 = 5 → ∀ i ∈ [Instr.queryPlayState, Instr.queryPlayingDevice],
      nextAnswer 5 s = .bytes (wellFormedResp8 op v) →
      ∃ t, exec i s = .next t ∧ t.result.toNat = v.toNat ∧ t.err = .none)

/-- R30, R25: after a query whose read was answered with the bytes `r.got`, RXCNT is their number and
RXBUF holds them in order and nothing beyond (the spec: unspecified; the model: no value, log 9), as far
as the 3 bits of RXCNT and the 6 bytes of RXBUF reach (an RLEN8 above 6 can ask for more: log 6); a
result without error is decoded from RXBUF, if the response has the byte. -/
def Obligations.ResponseBufferHoldsTheBytesObtained : Prop :=
  ∀ (i : Instr) (s t : State) (r : RxRecord), i.isQuery = true → exec i s = .next t →
    t.rx = s.rx ++ [r] →
    (r.got.length ≤ 7 → t.rxcnt.toNat = r.got.length) ∧
    (∀ j, t.rxbuf.read j = if j < 6 then r.got[j]? else none) ∧
    (t.err = .none →
      (i.queryClass = .resp8 → 4 ≤ s.par.rlen8 → ∃ b, t.rxbuf.read 3 = some b ∧ t.result = zext16 b) ∧
      (i.queryClass = .resp16 → ∃ h l, t.rxbuf.read 3 = some h ∧ t.rxbuf.read 4 = some l ∧
        t.result = join h l))

/-- R169: a short read and a corrupted response (of at least one byte) leave the same RESULT, and only ERR
tells them apart, where the query's write returns (R192 (c)). -/
def Obligations.ErrorsCollapseInResult : Prop :=
  ∀ (i : Instr) (s : State) (a b : List Byte) (rest : List RxAnswer), i.isQuery = true →
    writeReturns 4 s = true → a.length < i.queryClass.readLength s.par →
    b.length = i.queryClass.readLength s.par → validate b = false →
    ∃ t u, exec i { s with answers := .bytes a :: rest } = .next t ∧
      exec i { s with answers := .bytes b :: rest } = .next u ∧
      t.result = i.sentinel s.par ∧ u.result = t.result ∧ t.err = .comm ∧ u.err = .csum

/-- R192 (b): a read that never returns leaves the block in READ with BUSY = 1, its frame sent and
RESULT and ERR as they were; no later step goes on, and reset is refused. How the model shows this, a
next state whose step faults, is its choice, and so is an RX history without the request (log 14, log
18). -/
def Obligations.UnansweredReadLeavesTheBlockBusy : Prop :=
  ∀ (i : Instr) (s : State), i.isQuery = true → writeReturns 4 s = true →
    nextAnswer (i.queryClass.readLength s.par) s = .never →
    ∃ t, exec i s = .next t ∧ t.busy = true ∧ t.phase = .read ∧
      t.tx = s.tx ++ [0xAA#8, i.opcode, 0x00#8, 0xAA#8 + i.opcode] ∧
      t.result = s.result ∧ t.err = s.err ∧ t.rx = s.rx ∧ Kept s t ∧
      ∀ rest c straps,
        step { t with host := [] } = .fault .stuckBusy ∧
        step { t with host := .issue c :: rest } = .fault .stuckBusy ∧
        step { t with host := .reset straps :: rest } = .refused .resetWhileBusy

/-- R192 (d): a write that the transport never accepts whole leaves any command that sends a frame in
WRITE with BUSY = 1: the bytes accepted are handed over, RESULT, ERR and the RX history are as they were
(S too, but for the commands that consume it), no later step goes on, and reset is refused. How the model
shows this, with IDX and ACC at the bytes accepted, is its choice (log 11, log 18, log 25). -/
def Obligations.StalledWriteLeavesTheBlockBusy : Prop :=
  ∀ (i : Instr) (s : State) (w : List Byte) (r : Nat), i.isNoOp = false → admission s.cfg i = none →
    encode s.cfg.pathUpper (i.rowAt s.cfg.cycleW) = some w → s.txRoom = some r → r < w.length + 1 →
    ∃ t, exec i s = .next t ∧ Stalled (w ++ [checksum w]) r s t ∧
      ((∀ d p ts, i ≠ .playByPath d p ∧ i ≠ .interludeByPath d p ∧ i ≠ .combinationPlay ts) →
        t.stream = s.stream) ∧
      ∀ rest c straps,
        step { t with host := [] } = .fault .stuckBusy ∧
        step { t with host := .issue c :: rest } = .fault .stuckBusy ∧
        step { t with host := .reset straps :: rest } = .refused .resetWhileBusy

/-! ### All commands -/

/-- R11: a command is executed exactly inside its admitted domain, refused with the reason of the
domain's complete list outside it (the spec's decision D14), and never a fault. -/
def Obligations.CommandsRunExactlyInTheirDomain : Prop :=
  ∀ (i : Instr) (s : State),
    (admission s.cfg i = none → ∃ t, exec i s = .next t) ∧
    (∀ r, admission s.cfg i = some r → exec i s = .refused r)

/-- R88: no command modifies an operand register, the configuration, the parameters or the host's
plan. -/
def Obligations.CommandsKeepTheirOperands : Prop :=
  ∀ (i : Instr) (s t : State), exec i s = .next t → Kept s t

/-- R69, R71, R83, R85: what a command hands over is the words of its row in the opcode table followed
by their checksum, all of it where the write returns (R41), else the part accepted (R192 (d), log 25);
the silent no-ops hand over nothing. -/
def Obligations.CommandsSendTheWordsOfTheirRow : Prop :=
  ∀ (i : Instr) (s t : State), exec i s = .next t →
    (i.isNoOp = true ∧ t.tx = s.tx) ∨
    (i.isNoOp = false ∧ ∃ w, encode s.cfg.pathUpper (i.rowAt s.cfg.cycleW) = some w ∧
      (writeReturns (w.length + 1) s = true → t.tx = s.tx ++ (w ++ [checksum w])) ∧
      t.tx = s.tx ++ (w ++ [checksum w]).take (acceptedCount (w.length + 1) s.txRoom))

/-- What a command hands over is what the transport accepts less afterwards: the model's field for it (log
25) moves in no other way. -/
def Obligations.CommandsUseTheTransportsRoom : Prop :=
  ∀ (i : Instr) (s t : State), exec i s = .next t →
    ∃ f, t.tx = s.tx ++ f ∧ t.txRoom = s.txRoom.map (· - f.length)

/-- R42, R86: a command makes at most one read, only a query makes one, and it asks for RLEN8 or
RLEN16 bytes and obtains no more. -/
def Obligations.OnlyQueriesReadAndOnlyOnce : Prop :=
  ∀ (i : Instr) (s t : State), exec i s = .next t →
    (i.isQuery = false → NoRead s t) ∧
    (t.rx = s.rx ∨ ∃ got, got.length ≤ i.queryClass.readLength s.par ∧
      t.rx = s.rx ++ [{ want := i.queryClass.readLength s.par, got := got }])

/-- R170: only a query can end with ERR other than NONE; a command that waits for ever in its write
(R192 (d)) has written neither RESULT nor ERR. -/
def Obligations.OnlyQueriesRaiseErrors : Prop :=
  ∀ (i : Instr) (s t : State), exec i s = .next t → i.isQuery = false →
    (t.busy = false → t.err = .none ∧ t.result = 0x0000#16) ∧
    (t.busy = true → t.err = s.err ∧ t.result = s.result)

/-- R20: nothing an earlier command left plays a part: from two states with the same configuration, before
a transport that accepts the same, the same command sends the same bytes, and if it ends with the same
answer it leaves the same RESULT and ERR (for an 8-bit query where RLEN8 is at least 4: log 6); it ends in
both or in neither. -/
def Obligations.CommandsDependOnNoEarlierCommand : Prop :=
  ∀ (i : Instr) (s s' t t' : State), s.cfg = s'.cfg → s.par = s'.par → s.txRoom = s'.txRoom →
    exec i s = .next t → exec i s' = .next t' →
    (∃ f, t.tx = s.tx ++ f ∧ t'.tx = s'.tx ++ f) ∧
    (∀ bs, nextAnswer (i.queryClass.readLength s.par) s = .bytes bs →
      nextAnswer (i.queryClass.readLength s.par) s' = .bytes bs →
      t.busy = t'.busy ∧
      (t.busy = false → (i.queryClass = .resp8 → 4 ≤ s.par.rlen8) →
        t.result = t'.result ∧ t.err = t'.err))

/-- R192 (c), R85, R27: a command ends, idle with BUSY = 0, provided its write and its read, if it makes
them, return. -/
def Obligations.CommandsEndWhenTheReadReturns : Prop :=
  ∀ (i : Instr) (s t : State), exec i s = .next t →
    (i.isNoOp = false → ∀ w, encode s.cfg.pathUpper (i.rowAt s.cfg.cycleW) = some w →
      writeReturns (w.length + 1) s = true) →
    (i.isQuery = true → nextAnswer (i.queryClass.readLength s.par) s ≠ .never) →
    t.busy = false ∧ t.phase = .idle

/-- The model's choice of what stays in the transient registers of a fire-and-forget command that has
ended with a frame sent (log 10, log 11): ACC is the checksum byte sent, IDX the offset of the last byte, the
response buffer is empty, and so is the payload buffer but for a path command. -/
def Obligations.TransientsAfterAFireAndForgetCommand : Prop :=
  ∀ (i : Instr) (s t : State) (f : List Byte), exec i s = .next t → t.busy = false →
    i.isQuery = false → f ≠ [] → t.tx = s.tx ++ f →
    t.idx.toNat = f.length - 1 ∧ f.getLast? = some t.acc ∧ t.rxcnt = 0#3 ∧ t.rxbuf = [] ∧
    ((∀ d p, i ≠ .playByPath d p ∧ i ≠ .interludeByPath d p) → t.pbuf = [] ∧ t.plen = 0#8)

/-! ### Encodings -/

/-- R69, R23, R24, and R73 (the spec's own choice, D3): what is decoded from the port presentation of
a well-formed command is the command, with every operand at every value. -/
def Obligations.PortDecodingInvertsPortEncoding : Prop :=
  ∀ (w : CycleWidth) (i : Instr), i.wellFormed = true → i.rowAt w = i →
    decodePort w (encodePort i) = .ok i

/-- R60 to R64, R69: the words of a command decode to the command, with every operand at every value,
whatever follows them, but for paths that the decoder does not read back. Several paths can have one frame
(43_path_commands.md R120, R121: `/x.y` and `/x*y`, and with folding `/A` and `/a`); that it reads the
dot and the unfolded capital letter, and so the paths with no `'*'` and no foldable letter behind the first
byte, is the model's choice and no rule of the spec (log 21). -/
def Obligations.WireDecodingInvertsWireEncoding : Prop :=
  ∀ (upper : Bool) (i : Instr) (w rest : List Byte), encode upper i = some w →
    i.readBack upper → decode (w ++ rest) = .ok (i, rest)

/-- R120 (the transform is not injective): the frame of a path command decodes to a path command with
the very same frame, for every path. The path read is the model's choice (log 21). -/
def Obligations.PathFramesDecodeToTheirFrame : Prop :=
  ∀ (upper : Bool) (d : Byte) (p w rest : List Byte),
    (encode upper (.playByPath d p) = some w →
      ∃ q, decode (w ++ rest) = .ok (.playByPath d q, rest) ∧ encode upper (.playByPath d q) = some w) ∧
    (encode upper (.interludeByPath d p) = some w →
      ∃ q, decode (w ++ rest) = .ok (.interludeByPath d q, rest) ∧
        encode upper (.interludeByPath d q) = some w)

/-- R82, R74: a frame is decoded only with its right checksum, and then up to its last byte. -/
def Obligations.FrameDecodingTestsTheChecksum : Prop :=
  ∀ (i : Instr) (w rest : List Byte) (c : Byte), decode w = .ok (i, []) →
    decodeFrame (w ++ c :: rest) = if c = checksum w then .ok (i, rest) else .error .badChecksum

/-- R78: no two rows of the opcode table match the same prefix. -/
def Obligations.TableRowsAreDisjoint : Prop :=
  ∀ bs : List Byte, (opcodeTable.filter fun r => r.covers bs).length ≤ 1

/-- R78: the words of a command belong to the row that carries its mnemonic. -/
def Obligations.WordsBelongToTheRowOfTheirMnemonic : Prop :=
  ∀ (upper : Bool) (i : Instr) (w : List Byte), encode upper i = some w →
    ∃ r ∈ opcodeTable, r.mnemonic = i.mnemonic ∧ r.covers w = true

/-- R69, R62: a few words written out from the spec decode to their commands. -/
def Obligations.SampleWordsDecode : Prop :=
  decode [0xAA#8, 0x02#8, 0x00#8] = .ok (.play, []) ∧
  decode [0xAA#8, 0x07#8, 0x02#8, 0x01#8, 0x02#8] = .ok (.playByNumber 0x0102#16, []) ∧
  decode [0xAA#8, 0x0B#8, 0x01#8, 0x01#8] = .ok (.setDevice 0x01#8, []) ∧
  decode [0xAA#8, 0x0B#8, 0x03#8, 0x01#8, 0x01#8, 0x02#8] =
    .ok (.interludeByNumber 0x01#8 0x0102#16, []) ∧
  decode [0xAA#8, 0x1B#8, 0x04#8, 0x30#8, 0x31#8, 0x30#8, 0x32#8] =
    .ok (.combinationPlay [⟨0x30#8, 0x31#8⟩, ⟨0x30#8, 0x32#8⟩], [])

/-- R72: an unassigned opcode is no command, and a selector of 28 to 31 selects nothing. -/
def Obligations.ReservedEncodingsAreRefused : Prop :=
  (∀ (op len : Byte) (rest : List Byte), len.toNat ≤ rest.length →
    (op.toNat = 0x00 ∨ op.toNat = 0x09 ∨ op.toNat = 0x16 ∨ op.toNat = 0x1D ∨ op.toNat = 0x1E ∨
      0x20 ≤ op.toNat) →
    decode (0xAA#8 :: op :: len :: rest) = .error .unassignedOpcode) ∧
  (∀ (s : State) (c : PortCmd) (rest : List HostEvent), s.busy = false →
    s.host = .issue c :: rest → 28 ≤ c.opsel.toNat → step s = .refused .reservedOpsel)

/-! ### Steps -/

/-- R48 (a), R50: when the host's next event is a command that the port decodes, one step latches the
operands and is `exec` of the command; the event is used up. The host's queue is the model's form (log
3). -/
def Obligations.StepRunsTheDecodedCommand : Prop :=
  ∀ (s : State) (c : PortCmd) (rest : List HostEvent) (i : Instr), s.busy = false →
    s.host = .issue c :: rest → decodePort s.cfg.cycleW c = .ok i →
    step s = exec i { s with
      host := rest
      opsel := c.opsel, aDev := c.dev, aNum := c.num, aVal := c.val, aCnt := c.cnt
      stream := c.stream.take (streamLength c) }

/-- R185: with no event from the host an idle block does nothing (the model's form of it: log 3). -/
def Obligations.IdleBlockDoesNothing : Prop :=
  ∀ s : State, s.host = [] → s.busy = false → step s = .next s

/-- R189, R195: no command is accepted while BUSY = 1, and one whose stream is short does not end: the
model's step faults, whatever the bytes that did arrive and whatever A.CNT (its choice, and so is that
this stop comes before a refusal: log 17, log 18). -/
def Obligations.PortStops : Prop :=
  (∀ (s : State) (c : PortCmd) (rest : List HostEvent), s.host = .issue c :: rest → s.busy = true →
    step s = .fault .stuckBusy) ∧
  (∀ (s : State) (c : PortCmd) (rest : List HostEvent), s.host = .issue c :: rest → s.busy = false →
    c.opsel.toNat ∈ [7, 21, 25] → c.stream.length < streamLength c → step s = .fault .streamStarved)

/-- R31, R185: only reset changes the configuration. -/
def Obligations.OnlyResetChangesTheConfiguration : Prop :=
  ∀ s t : State, step s = .next t →
    t.par = s.par ∧ (t.cfg = s.cfg ∨ ∃ straps rest, s.host = .reset straps :: rest ∧ t.cfg = straps)

/-- The reset state meets the invariant. -/
def Obligations.ResetMeetsTheInvariant : Prop := State.reset.Inv

/-- Every step keeps the invariant: among others, the TX history is always a concatenation of complete
catalog frames (R48 (a), R60, R70, R72), with the part accepted of one more while a write waits for ever
(R192 (d), log 25), and the block is idle or waits in READ or in WRITE (R27, R192). -/
def Obligations.StepKeepsTheInvariant : Prop :=
  ∀ s t : State, s.Inv → step s = .next t → t.Inv

/-! ### The sequencer -/

/-- R7, R27: the sequencer realises the transaction: it accepts, refuses and faults as the transaction
does, and when the transaction has a next state, one that waits for ever too (R192), some number of ticks
reaches that very state. The sequencer's grain is the model's choice (log 20). -/
def Obligations.SequencerRealisesTheTransaction : Prop :=
  ∀ (s : State) (c : PortCmd), s.busy = false →
    (∀ t, runPort c s = .next t → ∃ a n, acceptPort c s = .next a ∧ ticks n a = .next t) ∧
    (∀ r, runPort c s = .refused r → acceptPort c s = .refused r) ∧
    (∀ e, runPort c s = .fault e → acceptPort c s = .fault e)

/-- R27, R28 (the spec's own choice, D9), R48 (b), at the model's grain (log 20): in WRITE a tick that
goes on hands over one byte, the one at offset IDX: header byte, opcode, length byte, the payload byte at
IDX - 3 (of a streamed payload, the next byte of S), and last ACC; ACC gains every byte but the last and
IDX stays within 258. -/
def Obligations.WriteTickSendsTheByteAtIdx : Prop :=
  ∀ (s t : State) (row : PortRow), s.phase = .write → portRow s.opsel.toNat = some row →
    payloadLength row.source s ≤ 255 → s.idx.toNat ≤ 3 + payloadLength row.source s → tick s = .next t →
    ∃ b, t.tx = s.tx ++ [b] ∧
      (s.idx.toNat = 0 → b = 0xAA#8) ∧ (s.idx.toNat = 1 → b = row.opcode) ∧
      (s.idx.toNat = 2 → b = BitVec.ofNat 8 (payloadLength row.source s)) ∧
      (3 ≤ s.idx.toNat → s.idx.toNat < 3 + payloadLength row.source s →
        payloadByte row.source (s.idx.toNat - 3) s = .ok b) ∧
      (s.idx.toNat < 3 + payloadLength row.source s →
        t.idx.toNat = s.idx.toNat + 1 ∧ t.acc = s.acc + b ∧ t.phase = .write) ∧
      (s.idx.toNat = 3 + payloadLength row.source s →
        b = s.acc ∧ t.acc = s.acc ∧ t.idx = s.idx ∧
        t.phase = if row.reply.isSome then .read else .idle)

/-- R48 (c), (d): a tick that makes a read finds the block in READ, sends nothing, and ends the command
with RESULT and ERR written: the sentinel with the error on a short or a corrupted response, else the
value (R145 to R148; what the spec leaves open for an RLEN8 below 4 is free: log 6). READ is entered only
by the tick that sends the frame's last byte. The grain of a tick is the model's choice (log 20). -/
def Obligations.ReadFollowsTheWholeFrame : Prop :=
  ∀ s t : State, tick s = .next t →
    (t.rx ≠ s.rx → s.phase = .read ∧ t.tx = s.tx ∧ t.phase = .idle ∧ t.busy = false ∧
      ∃ row cls n bs, portRow s.opsel.toNat = some row ∧ row.reply = some cls ∧
        n = cls.readLength s.par ∧ nextAnswer n s = .bytes bs ∧
        t.rx = s.rx ++ [{ want := n, got := bs.take n }] ∧
        (bs.length < n → t.result = sentinelOf s.opsel.toNat s.par ∧ t.err = .comm) ∧
        (1 ≤ n → n ≤ bs.length → validate (bs.take n) = false →
          t.result = sentinelOf s.opsel.toNat s.par ∧ t.err = .csum) ∧
        (1 ≤ n → n ≤ bs.length → validate (bs.take n) = true → t.err = .none ∧
          (cls = .resp8 → ∃ b, (4 ≤ n → bs[3]? = some b) ∧ t.result = zext16 b) ∧
          (cls = .resp16 → ∃ h l, bs[3]? = some h ∧ bs[4]? = some l ∧ t.result = join h l)) ∧
        (n = 0 → t.err = .none ∨ t.result = sentinelOf s.opsel.toNat s.par ∧ t.err = .csum)) ∧
    (s.phase ≠ .read → t.phase = .read → s.phase = .write ∧ t.tx = s.tx ++ [s.acc] ∧
      ∃ row, portRow s.opsel.toNat = some row ∧ 3 + payloadLength row.source s ≤ s.idx.toNat)
end

