-- ==== Sys2Proof/Laws/State.lean ====
section
/-! SUPPORT. One lemma per field per state update of Machine/Ops.lean, Combination.lean, Step.lean and
Sequencer.lean, so that no later proof unfolds a record update. -/

namespace Sys2Proof.Machine

/-! ### accept -/

@[simp] theorem accept_opsel (s : State) : (accept s).opsel = s.opsel := rfl
@[simp] theorem accept_aDev (s : State) : (accept s).aDev = s.aDev := rfl
@[simp] theorem accept_aNum (s : State) : (accept s).aNum = s.aNum := rfl
@[simp] theorem accept_aVal (s : State) : (accept s).aVal = s.aVal := rfl
@[simp] theorem accept_aCnt (s : State) : (accept s).aCnt = s.aCnt := rfl
@[simp] theorem accept_stream (s : State) : (accept s).stream = s.stream := rfl
@[simp] theorem accept_result (s : State) : (accept s).result = s.result := rfl
@[simp] theorem accept_err (s : State) : (accept s).err = s.err := rfl
@[simp] theorem accept_busy (s : State) : (accept s).busy = true := rfl
@[simp] theorem accept_phase (s : State) : (accept s).phase = s.phase := rfl
@[simp] theorem accept_idx (s : State) : (accept s).idx = 0#9 := rfl
@[simp] theorem accept_acc (s : State) : (accept s).acc = 0#8 := rfl
@[simp] theorem accept_pbuf (s : State) : (accept s).pbuf = [] := rfl
@[simp] theorem accept_plen (s : State) : (accept s).plen = 0#8 := rfl
@[simp] theorem accept_rxbuf (s : State) : (accept s).rxbuf = [] := rfl
@[simp] theorem accept_rxcnt (s : State) : (accept s).rxcnt = 0#3 := rfl
@[simp] theorem accept_cfg (s : State) : (accept s).cfg = s.cfg := rfl
@[simp] theorem accept_par (s : State) : (accept s).par = s.par := rfl
@[simp] theorem accept_host (s : State) : (accept s).host = s.host := rfl
@[simp] theorem accept_answers (s : State) : (accept s).answers = s.answers := rfl
@[simp] theorem accept_reads (s : State) : (accept s).reads = s.reads := rfl
@[simp] theorem accept_txRoom (s : State) : (accept s).txRoom = s.txRoom := rfl
@[simp] theorem accept_tx (s : State) : (accept s).tx = s.tx := rfl
@[simp] theorem accept_rx (s : State) : (accept s).rx = s.rx := rfl

/-! ### finish -/

@[simp] theorem finish_opsel (v : Half) (s : State) : (finish v s).opsel = s.opsel := rfl
@[simp] theorem finish_aDev (v : Half) (s : State) : (finish v s).aDev = s.aDev := rfl
@[simp] theorem finish_aNum (v : Half) (s : State) : (finish v s).aNum = s.aNum := rfl
@[simp] theorem finish_aVal (v : Half) (s : State) : (finish v s).aVal = s.aVal := rfl
@[simp] theorem finish_aCnt (v : Half) (s : State) : (finish v s).aCnt = s.aCnt := rfl
@[simp] theorem finish_stream (v : Half) (s : State) : (finish v s).stream = s.stream := rfl
@[simp] theorem finish_result (v : Half) (s : State) : (finish v s).result = v := rfl
@[simp] theorem finish_err (v : Half) (s : State) : (finish v s).err = .none := rfl
@[simp] theorem finish_busy (v : Half) (s : State) : (finish v s).busy = false := rfl
@[simp] theorem finish_phase (v : Half) (s : State) : (finish v s).phase = .idle := rfl
@[simp] theorem finish_idx (v : Half) (s : State) : (finish v s).idx = s.idx := rfl
@[simp] theorem finish_acc (v : Half) (s : State) : (finish v s).acc = s.acc := rfl
@[simp] theorem finish_pbuf (v : Half) (s : State) : (finish v s).pbuf = s.pbuf := rfl
@[simp] theorem finish_plen (v : Half) (s : State) : (finish v s).plen = s.plen := rfl
@[simp] theorem finish_rxbuf (v : Half) (s : State) : (finish v s).rxbuf = s.rxbuf := rfl
@[simp] theorem finish_rxcnt (v : Half) (s : State) : (finish v s).rxcnt = s.rxcnt := rfl
@[simp] theorem finish_cfg (v : Half) (s : State) : (finish v s).cfg = s.cfg := rfl
@[simp] theorem finish_par (v : Half) (s : State) : (finish v s).par = s.par := rfl
@[simp] theorem finish_host (v : Half) (s : State) : (finish v s).host = s.host := rfl
@[simp] theorem finish_answers (v : Half) (s : State) : (finish v s).answers = s.answers := rfl
@[simp] theorem finish_reads (v : Half) (s : State) : (finish v s).reads = s.reads := rfl
@[simp] theorem finish_txRoom (v : Half) (s : State) : (finish v s).txRoom = s.txRoom := rfl
@[simp] theorem finish_tx (v : Half) (s : State) : (finish v s).tx = s.tx := rfl
@[simp] theorem finish_rx (v : Half) (s : State) : (finish v s).rx = s.rx := rfl

/-! ### takeError -/

@[simp] theorem takeError_opsel (e : Err) (v : Half) (s : State) : (takeError e v s).opsel = s.opsel := rfl
@[simp] theorem takeError_aDev (e : Err) (v : Half) (s : State) : (takeError e v s).aDev = s.aDev := rfl
@[simp] theorem takeError_aNum (e : Err) (v : Half) (s : State) : (takeError e v s).aNum = s.aNum := rfl
@[simp] theorem takeError_aVal (e : Err) (v : Half) (s : State) : (takeError e v s).aVal = s.aVal := rfl
@[simp] theorem takeError_aCnt (e : Err) (v : Half) (s : State) : (takeError e v s).aCnt = s.aCnt := rfl
@[simp] theorem takeError_stream (e : Err) (v : Half) (s : State) : (takeError e v s).stream = s.stream := rfl
@[simp] theorem takeError_result (e : Err) (v : Half) (s : State) : (takeError e v s).result = v := rfl
@[simp] theorem takeError_err (e : Err) (v : Half) (s : State) : (takeError e v s).err = e := rfl
@[simp] theorem takeError_busy (e : Err) (v : Half) (s : State) : (takeError e v s).busy = false := rfl
@[simp] theorem takeError_phase (e : Err) (v : Half) (s : State) : (takeError e v s).phase = .idle := rfl
@[simp] theorem takeError_idx (e : Err) (v : Half) (s : State) : (takeError e v s).idx = s.idx := rfl
@[simp] theorem takeError_acc (e : Err) (v : Half) (s : State) : (takeError e v s).acc = s.acc := rfl
@[simp] theorem takeError_pbuf (e : Err) (v : Half) (s : State) : (takeError e v s).pbuf = s.pbuf := rfl
@[simp] theorem takeError_plen (e : Err) (v : Half) (s : State) : (takeError e v s).plen = s.plen := rfl
@[simp] theorem takeError_rxbuf (e : Err) (v : Half) (s : State) : (takeError e v s).rxbuf = s.rxbuf := rfl
@[simp] theorem takeError_rxcnt (e : Err) (v : Half) (s : State) : (takeError e v s).rxcnt = s.rxcnt := rfl
@[simp] theorem takeError_cfg (e : Err) (v : Half) (s : State) : (takeError e v s).cfg = s.cfg := rfl
@[simp] theorem takeError_par (e : Err) (v : Half) (s : State) : (takeError e v s).par = s.par := rfl
@[simp] theorem takeError_host (e : Err) (v : Half) (s : State) : (takeError e v s).host = s.host := rfl
@[simp] theorem takeError_answers (e : Err) (v : Half) (s : State) : (takeError e v s).answers = s.answers := rfl
@[simp] theorem takeError_reads (e : Err) (v : Half) (s : State) : (takeError e v s).reads = s.reads := rfl
@[simp] theorem takeError_txRoom (e : Err) (v : Half) (s : State) : (takeError e v s).txRoom = s.txRoom := rfl
@[simp] theorem takeError_tx (e : Err) (v : Half) (s : State) : (takeError e v s).tx = s.tx := rfl
@[simp] theorem takeError_rx (e : Err) (v : Half) (s : State) : (takeError e v s).rx = s.rx := rfl

/-! ### txWrite -/

@[simp] theorem txWrite_opsel (bs : List Byte) (s : State) : (txWrite bs s).opsel = s.opsel := rfl
@[simp] theorem txWrite_aDev (bs : List Byte) (s : State) : (txWrite bs s).aDev = s.aDev := rfl
@[simp] theorem txWrite_aNum (bs : List Byte) (s : State) : (txWrite bs s).aNum = s.aNum := rfl
@[simp] theorem txWrite_aVal (bs : List Byte) (s : State) : (txWrite bs s).aVal = s.aVal := rfl
@[simp] theorem txWrite_aCnt (bs : List Byte) (s : State) : (txWrite bs s).aCnt = s.aCnt := rfl
@[simp] theorem txWrite_stream (bs : List Byte) (s : State) : (txWrite bs s).stream = s.stream := rfl
@[simp] theorem txWrite_result (bs : List Byte) (s : State) : (txWrite bs s).result = s.result := rfl
@[simp] theorem txWrite_err (bs : List Byte) (s : State) : (txWrite bs s).err = s.err := rfl
@[simp] theorem txWrite_busy (bs : List Byte) (s : State) : (txWrite bs s).busy = s.busy := rfl
@[simp] theorem txWrite_phase (bs : List Byte) (s : State) : (txWrite bs s).phase = s.phase := rfl
@[simp] theorem txWrite_idx (bs : List Byte) (s : State) : (txWrite bs s).idx = s.idx := rfl
@[simp] theorem txWrite_acc (bs : List Byte) (s : State) : (txWrite bs s).acc = s.acc := rfl
@[simp] theorem txWrite_pbuf (bs : List Byte) (s : State) : (txWrite bs s).pbuf = s.pbuf := rfl
@[simp] theorem txWrite_plen (bs : List Byte) (s : State) : (txWrite bs s).plen = s.plen := rfl
@[simp] theorem txWrite_rxbuf (bs : List Byte) (s : State) : (txWrite bs s).rxbuf = s.rxbuf := rfl
@[simp] theorem txWrite_rxcnt (bs : List Byte) (s : State) : (txWrite bs s).rxcnt = s.rxcnt := rfl
@[simp] theorem txWrite_cfg (bs : List Byte) (s : State) : (txWrite bs s).cfg = s.cfg := rfl
@[simp] theorem txWrite_par (bs : List Byte) (s : State) : (txWrite bs s).par = s.par := rfl
@[simp] theorem txWrite_host (bs : List Byte) (s : State) : (txWrite bs s).host = s.host := rfl
@[simp] theorem txWrite_answers (bs : List Byte) (s : State) : (txWrite bs s).answers = s.answers := rfl
@[simp] theorem txWrite_reads (bs : List Byte) (s : State) : (txWrite bs s).reads = s.reads := rfl
@[simp] theorem txWrite_txRoom (bs : List Byte) (s : State) : (txWrite bs s).txRoom = s.txRoom.map (· - bs.length) := rfl
@[simp] theorem txWrite_tx (bs : List Byte) (s : State) : (txWrite bs s).tx = s.tx ++ bs.take (acceptedCount bs.length s.txRoom) := rfl
@[simp] theorem txWrite_rx (bs : List Byte) (s : State) : (txWrite bs s).rx = s.rx := rfl

/-! ### handOver -/

@[simp] theorem handOver_opsel (f : List Byte) (s : State) : (handOver f s).opsel = s.opsel := rfl
@[simp] theorem handOver_aDev (f : List Byte) (s : State) : (handOver f s).aDev = s.aDev := rfl
@[simp] theorem handOver_aNum (f : List Byte) (s : State) : (handOver f s).aNum = s.aNum := rfl
@[simp] theorem handOver_aVal (f : List Byte) (s : State) : (handOver f s).aVal = s.aVal := rfl
@[simp] theorem handOver_aCnt (f : List Byte) (s : State) : (handOver f s).aCnt = s.aCnt := rfl
@[simp] theorem handOver_stream (f : List Byte) (s : State) : (handOver f s).stream = s.stream := rfl
@[simp] theorem handOver_result (f : List Byte) (s : State) : (handOver f s).result = s.result := rfl
@[simp] theorem handOver_err (f : List Byte) (s : State) : (handOver f s).err = s.err := rfl
@[simp] theorem handOver_busy (f : List Byte) (s : State) : (handOver f s).busy = s.busy := rfl
@[simp] theorem handOver_phase (f : List Byte) (s : State) : (handOver f s).phase = .write := rfl
@[simp] theorem handOver_idx (f : List Byte) (s : State) : (handOver f s).idx = BitVec.ofNat 9 (min (acceptedCount f.length s.txRoom) (f.length - 1)) := rfl
@[simp] theorem handOver_acc (f : List Byte) (s : State) : (handOver f s).acc = checksum (f.take (min (acceptedCount f.length s.txRoom) (f.length - 1))) := rfl
@[simp] theorem handOver_pbuf (f : List Byte) (s : State) : (handOver f s).pbuf = s.pbuf := rfl
@[simp] theorem handOver_plen (f : List Byte) (s : State) : (handOver f s).plen = s.plen := rfl
@[simp] theorem handOver_rxbuf (f : List Byte) (s : State) : (handOver f s).rxbuf = s.rxbuf := rfl
@[simp] theorem handOver_rxcnt (f : List Byte) (s : State) : (handOver f s).rxcnt = s.rxcnt := rfl
@[simp] theorem handOver_cfg (f : List Byte) (s : State) : (handOver f s).cfg = s.cfg := rfl
@[simp] theorem handOver_par (f : List Byte) (s : State) : (handOver f s).par = s.par := rfl
@[simp] theorem handOver_host (f : List Byte) (s : State) : (handOver f s).host = s.host := rfl
@[simp] theorem handOver_answers (f : List Byte) (s : State) : (handOver f s).answers = s.answers := rfl
@[simp] theorem handOver_reads (f : List Byte) (s : State) : (handOver f s).reads = s.reads := rfl
@[simp] theorem handOver_txRoom (f : List Byte) (s : State) : (handOver f s).txRoom = s.txRoom.map (· - f.length) := rfl
@[simp] theorem handOver_tx (f : List Byte) (s : State) : (handOver f s).tx = s.tx ++ f.take (acceptedCount f.length s.txRoom) := rfl
@[simp] theorem handOver_rx (f : List Byte) (s : State) : (handOver f s).rx = s.rx := rfl

/-! ### rxAnswered -/

@[simp] theorem rxAnswered_opsel (n : Nat) (bs : List Byte) (s : State) : (rxAnswered n bs s).opsel = s.opsel := rfl
@[simp] theorem rxAnswered_aDev (n : Nat) (bs : List Byte) (s : State) : (rxAnswered n bs s).aDev = s.aDev := rfl
@[simp] theorem rxAnswered_aNum (n : Nat) (bs : List Byte) (s : State) : (rxAnswered n bs s).aNum = s.aNum := rfl
@[simp] theorem rxAnswered_aVal (n : Nat) (bs : List Byte) (s : State) : (rxAnswered n bs s).aVal = s.aVal := rfl
@[simp] theorem rxAnswered_aCnt (n : Nat) (bs : List Byte) (s : State) : (rxAnswered n bs s).aCnt = s.aCnt := rfl
@[simp] theorem rxAnswered_stream (n : Nat) (bs : List Byte) (s : State) : (rxAnswered n bs s).stream = s.stream := rfl
@[simp] theorem rxAnswered_result (n : Nat) (bs : List Byte) (s : State) : (rxAnswered n bs s).result = s.result := rfl
@[simp] theorem rxAnswered_err (n : Nat) (bs : List Byte) (s : State) : (rxAnswered n bs s).err = s.err := rfl
@[simp] theorem rxAnswered_busy (n : Nat) (bs : List Byte) (s : State) : (rxAnswered n bs s).busy = s.busy := rfl
@[simp] theorem rxAnswered_phase (n : Nat) (bs : List Byte) (s : State) : (rxAnswered n bs s).phase = s.phase := rfl
@[simp] theorem rxAnswered_idx (n : Nat) (bs : List Byte) (s : State) : (rxAnswered n bs s).idx = s.idx := rfl
@[simp] theorem rxAnswered_acc (n : Nat) (bs : List Byte) (s : State) : (rxAnswered n bs s).acc = s.acc := rfl
@[simp] theorem rxAnswered_pbuf (n : Nat) (bs : List Byte) (s : State) : (rxAnswered n bs s).pbuf = s.pbuf := rfl
@[simp] theorem rxAnswered_plen (n : Nat) (bs : List Byte) (s : State) : (rxAnswered n bs s).plen = s.plen := rfl
@[simp] theorem rxAnswered_rxbuf (n : Nat) (bs : List Byte) (s : State) : (rxAnswered n bs s).rxbuf = Memory.writeList [] 0 ((bs.take n).take Config.rxbufSize) := rfl
@[simp] theorem rxAnswered_rxcnt (n : Nat) (bs : List Byte) (s : State) : (rxAnswered n bs s).rxcnt = obtainedCount (bs.take n).length s.reads := rfl
@[simp] theorem rxAnswered_cfg (n : Nat) (bs : List Byte) (s : State) : (rxAnswered n bs s).cfg = s.cfg := rfl
@[simp] theorem rxAnswered_par (n : Nat) (bs : List Byte) (s : State) : (rxAnswered n bs s).par = s.par := rfl
@[simp] theorem rxAnswered_host (n : Nat) (bs : List Byte) (s : State) : (rxAnswered n bs s).host = s.host := rfl
@[simp] theorem rxAnswered_answers (n : Nat) (bs : List Byte) (s : State) : (rxAnswered n bs s).answers = s.answers.tail := rfl
@[simp] theorem rxAnswered_reads (n : Nat) (bs : List Byte) (s : State) : (rxAnswered n bs s).reads = s.reads + 1 := rfl
@[simp] theorem rxAnswered_txRoom (n : Nat) (bs : List Byte) (s : State) : (rxAnswered n bs s).txRoom = s.txRoom := rfl
@[simp] theorem rxAnswered_tx (n : Nat) (bs : List Byte) (s : State) : (rxAnswered n bs s).tx = s.tx := rfl
@[simp] theorem rxAnswered_rx (n : Nat) (bs : List Byte) (s : State) : (rxAnswered n bs s).rx = s.rx ++ [{ want := n, got := bs.take n }] := rfl

/-! ### streamBytes -/

@[simp] theorem streamBytes_opsel (bs : List Byte) (s : State) : (streamBytes bs s).opsel = s.opsel := rfl
@[simp] theorem streamBytes_aDev (bs : List Byte) (s : State) : (streamBytes bs s).aDev = s.aDev := rfl
@[simp] theorem streamBytes_aNum (bs : List Byte) (s : State) : (streamBytes bs s).aNum = s.aNum := rfl
@[simp] theorem streamBytes_aVal (bs : List Byte) (s : State) : (streamBytes bs s).aVal = s.aVal := rfl
@[simp] theorem streamBytes_aCnt (bs : List Byte) (s : State) : (streamBytes bs s).aCnt = s.aCnt := rfl
@[simp] theorem streamBytes_stream (bs : List Byte) (s : State) : (streamBytes bs s).stream = s.stream := rfl
@[simp] theorem streamBytes_result (bs : List Byte) (s : State) : (streamBytes bs s).result = s.result := rfl
@[simp] theorem streamBytes_err (bs : List Byte) (s : State) : (streamBytes bs s).err = s.err := rfl
@[simp] theorem streamBytes_busy (bs : List Byte) (s : State) : (streamBytes bs s).busy = s.busy := rfl
@[simp] theorem streamBytes_phase (bs : List Byte) (s : State) : (streamBytes bs s).phase = s.phase := rfl
@[simp] theorem streamBytes_idx (bs : List Byte) (s : State) : (streamBytes bs s).idx = s.idx + BitVec.ofNat 9 (acceptedCount bs.length s.txRoom) := rfl
@[simp] theorem streamBytes_acc (bs : List Byte) (s : State) : (streamBytes bs s).acc = runningSum s.acc (bs.take (acceptedCount bs.length s.txRoom)) := rfl
@[simp] theorem streamBytes_pbuf (bs : List Byte) (s : State) : (streamBytes bs s).pbuf = s.pbuf := rfl
@[simp] theorem streamBytes_plen (bs : List Byte) (s : State) : (streamBytes bs s).plen = s.plen := rfl
@[simp] theorem streamBytes_rxbuf (bs : List Byte) (s : State) : (streamBytes bs s).rxbuf = s.rxbuf := rfl
@[simp] theorem streamBytes_rxcnt (bs : List Byte) (s : State) : (streamBytes bs s).rxcnt = s.rxcnt := rfl
@[simp] theorem streamBytes_cfg (bs : List Byte) (s : State) : (streamBytes bs s).cfg = s.cfg := rfl
@[simp] theorem streamBytes_par (bs : List Byte) (s : State) : (streamBytes bs s).par = s.par := rfl
@[simp] theorem streamBytes_host (bs : List Byte) (s : State) : (streamBytes bs s).host = s.host := rfl
@[simp] theorem streamBytes_answers (bs : List Byte) (s : State) : (streamBytes bs s).answers = s.answers := rfl
@[simp] theorem streamBytes_reads (bs : List Byte) (s : State) : (streamBytes bs s).reads = s.reads := rfl
@[simp] theorem streamBytes_txRoom (bs : List Byte) (s : State) : (streamBytes bs s).txRoom = s.txRoom.map (· - bs.length) := rfl
@[simp] theorem streamBytes_tx (bs : List Byte) (s : State) : (streamBytes bs s).tx = s.tx ++ bs.take (acceptedCount bs.length s.txRoom) := rfl
@[simp] theorem streamBytes_rx (bs : List Byte) (s : State) : (streamBytes bs s).rx = s.rx := rfl

/-! ### latch -/

@[simp] theorem latch_opsel (c : PortCmd) (s : State) : (latch c s).opsel = c.opsel := rfl
@[simp] theorem latch_aDev (c : PortCmd) (s : State) : (latch c s).aDev = c.dev := rfl
@[simp] theorem latch_aNum (c : PortCmd) (s : State) : (latch c s).aNum = c.num := rfl
@[simp] theorem latch_aVal (c : PortCmd) (s : State) : (latch c s).aVal = c.val := rfl
@[simp] theorem latch_aCnt (c : PortCmd) (s : State) : (latch c s).aCnt = c.cnt := rfl
@[simp] theorem latch_stream (c : PortCmd) (s : State) : (latch c s).stream = c.stream.take (streamLength c) := rfl
@[simp] theorem latch_result (c : PortCmd) (s : State) : (latch c s).result = s.result := rfl
@[simp] theorem latch_err (c : PortCmd) (s : State) : (latch c s).err = s.err := rfl
@[simp] theorem latch_busy (c : PortCmd) (s : State) : (latch c s).busy = s.busy := rfl
@[simp] theorem latch_phase (c : PortCmd) (s : State) : (latch c s).phase = s.phase := rfl
@[simp] theorem latch_idx (c : PortCmd) (s : State) : (latch c s).idx = s.idx := rfl
@[simp] theorem latch_acc (c : PortCmd) (s : State) : (latch c s).acc = s.acc := rfl
@[simp] theorem latch_pbuf (c : PortCmd) (s : State) : (latch c s).pbuf = s.pbuf := rfl
@[simp] theorem latch_plen (c : PortCmd) (s : State) : (latch c s).plen = s.plen := rfl
@[simp] theorem latch_rxbuf (c : PortCmd) (s : State) : (latch c s).rxbuf = s.rxbuf := rfl
@[simp] theorem latch_rxcnt (c : PortCmd) (s : State) : (latch c s).rxcnt = s.rxcnt := rfl
@[simp] theorem latch_cfg (c : PortCmd) (s : State) : (latch c s).cfg = s.cfg := rfl
@[simp] theorem latch_par (c : PortCmd) (s : State) : (latch c s).par = s.par := rfl
@[simp] theorem latch_host (c : PortCmd) (s : State) : (latch c s).host = s.host := rfl
@[simp] theorem latch_answers (c : PortCmd) (s : State) : (latch c s).answers = s.answers := rfl
@[simp] theorem latch_reads (c : PortCmd) (s : State) : (latch c s).reads = s.reads := rfl
@[simp] theorem latch_txRoom (c : PortCmd) (s : State) : (latch c s).txRoom = s.txRoom := rfl
@[simp] theorem latch_tx (c : PortCmd) (s : State) : (latch c s).tx = s.tx := rfl
@[simp] theorem latch_rx (c : PortCmd) (s : State) : (latch c s).rx = s.rx := rfl

/-! ### emit -/

@[simp] theorem emit_opsel (b : Byte) (s : State) : (emit b s).opsel = s.opsel := rfl
@[simp] theorem emit_aDev (b : Byte) (s : State) : (emit b s).aDev = s.aDev := rfl
@[simp] theorem emit_aNum (b : Byte) (s : State) : (emit b s).aNum = s.aNum := rfl
@[simp] theorem emit_aVal (b : Byte) (s : State) : (emit b s).aVal = s.aVal := rfl
@[simp] theorem emit_aCnt (b : Byte) (s : State) : (emit b s).aCnt = s.aCnt := rfl
@[simp] theorem emit_stream (b : Byte) (s : State) : (emit b s).stream = s.stream := rfl
@[simp] theorem emit_result (b : Byte) (s : State) : (emit b s).result = s.result := rfl
@[simp] theorem emit_err (b : Byte) (s : State) : (emit b s).err = s.err := rfl
@[simp] theorem emit_busy (b : Byte) (s : State) : (emit b s).busy = s.busy := rfl
@[simp] theorem emit_phase (b : Byte) (s : State) : (emit b s).phase = s.phase := rfl
@[simp] theorem emit_idx (b : Byte) (s : State) : (emit b s).idx = s.idx + 1#9 := rfl
@[simp] theorem emit_acc (b : Byte) (s : State) : (emit b s).acc = s.acc + b := rfl
@[simp] theorem emit_pbuf (b : Byte) (s : State) : (emit b s).pbuf = s.pbuf := rfl
@[simp] theorem emit_plen (b : Byte) (s : State) : (emit b s).plen = s.plen := rfl
@[simp] theorem emit_rxbuf (b : Byte) (s : State) : (emit b s).rxbuf = s.rxbuf := rfl
@[simp] theorem emit_rxcnt (b : Byte) (s : State) : (emit b s).rxcnt = s.rxcnt := rfl
@[simp] theorem emit_cfg (b : Byte) (s : State) : (emit b s).cfg = s.cfg := rfl
@[simp] theorem emit_par (b : Byte) (s : State) : (emit b s).par = s.par := rfl
@[simp] theorem emit_host (b : Byte) (s : State) : (emit b s).host = s.host := rfl
@[simp] theorem emit_answers (b : Byte) (s : State) : (emit b s).answers = s.answers := rfl
@[simp] theorem emit_reads (b : Byte) (s : State) : (emit b s).reads = s.reads := rfl
@[simp] theorem emit_txRoom (b : Byte) (s : State) : (emit b s).txRoom = s.txRoom.map (· - 1) := rfl
@[simp] theorem emit_tx (b : Byte) (s : State) : (emit b s).tx = s.tx ++ [b].take (acceptedCount 1 s.txRoom) := rfl
@[simp] theorem emit_rx (b : Byte) (s : State) : (emit b s).rx = s.rx := rfl

end Sys2Proof.Machine
end

