-- ==== Sys2Proof/Laws/Memory.lean ====
section
/-! SUPPORT. The indexed buffers: what a read gives after a write, and that every write keeps the
canonical form and the buffer's bound. -/

namespace Sys2Proof.Machine

/-- Reading back the position written, and any other position as before. -/
theorem Memory.read_write (m : Memory) (a c : Nat) (b : Byte) :
    (m.write a b).read c = if a = c then some b else m.read c := by
  induction m with
  | nil => simp [Memory.write, Memory.read]
  | cons e rest ih =>
    obtain ⟨k, d⟩ := e
    simp only [Memory.write]
    split
    · simp [Memory.read]
    · split
      · rename_i h1 h2
        subst h2
        simp only [Memory.read]
        split <;> simp_all
      · simp only [Memory.read, ih]
        split <;> split <;> simp_all

/-- What a read gives after a run of bytes was written from `a` on. -/
theorem Memory.read_writeList (bs : List Byte) : ∀ (m : Memory) (a c : Nat),
    (m.writeList a bs).read c
      = if a ≤ c ∧ c < a + bs.length then bs[c - a]? else m.read c := by
  induction bs with
  | nil => intro m a c; simp only [Memory.writeList, List.length_nil]; split <;> [omega; rfl]
  | cons b rest ih =>
    intro m a c
    simp only [Memory.writeList, ih, Memory.read_write, List.length_cons]
    by_cases h1 : a + 1 ≤ c ∧ c < a + 1 + rest.length
    · have h2 : a ≤ c ∧ c < a + (rest.length + 1) := by omega
      have h3 : c - a = (c - (a + 1)) + 1 := by omega
      simp [h1, h2, h3]
    · by_cases h2 : a = c
      · subst h2; simp
      · have h3 : ¬ (a ≤ c ∧ c < a + (rest.length + 1)) := by omega
        rw [if_neg h1, if_neg h2, if_neg h3]

/-- A buffer written from position 0 on holds exactly the bytes written. -/
theorem Memory.read_fresh (bs : List Byte) (j : Nat) :
    (Memory.writeList [] 0 bs).read j = bs[j]? := by
  rw [Memory.read_writeList]
  by_cases h : j < bs.length
  · simp [h]
  · simp [h, Memory.read]

/-- The positions after a write are the old ones and the one written. -/
theorem Memory.mem_write {m : Memory} {a : Nat} {b : Byte} {e : Host.Cell} (h : e ∈ m.write a b) :
    e = (a, b) ∨ e ∈ m := by
  induction m with
  | nil => simpa [Memory.write] using h
  | cons x rest ih =>
    obtain ⟨k, d⟩ := x
    simp only [Memory.write] at h
    split at h
    · simpa using h
    · split at h
      · simp only [List.mem_cons] at h ⊢; tauto
      · simp only [List.mem_cons] at h ⊢
        rcases h with h | h
        · exact .inr (.inl h)
        · exact (ih h).imp id .inr

/-- A write keeps the canonical form. -/
theorem Memory.write_wf {m : Memory} (a : Nat) (b : Byte) (h : m.wf) : (m.write a b).wf := by
  induction m with
  | nil => simp [Memory.write]
  | cons x rest ih =>
    obtain ⟨k, d⟩ := x
    obtain ⟨hk, hr⟩ := List.pairwise_cons.1 h
    simp only [Memory.write]
    split
    · rename_i hak
      refine List.pairwise_cons.2 ⟨fun e he => ?_, h⟩
      rcases List.mem_cons.1 he with rfl | he
      · exact hak
      · exact Nat.lt_trans hak (hk e he)
    · split
      · rename_i h1 h2
        subst h2
        exact List.pairwise_cons.2 ⟨hk, hr⟩
      · refine List.pairwise_cons.2 ⟨fun e he => ?_, ih hr⟩
        rcases Memory.mem_write he with rfl | he
        · show k < a
          omega
        · exact hk e he

/-- Writing a run of bytes keeps the canonical form. -/
theorem Memory.writeList_wf (bs : List Byte) : ∀ {m : Memory} (a : Nat), m.wf → (m.writeList a bs).wf := by
  induction bs with
  | nil => intro m a h; exact h
  | cons b rest ih => intro m a h; exact ih (a + 1) (Memory.write_wf a b h)

/-- A run of bytes that ends within a bound keeps every position within it. -/
theorem Memory.writeList_bound (n : Nat) (bs : List Byte) : ∀ {m : Memory} (a : Nat),
    a + bs.length ≤ n → (∀ e ∈ m, e.1 < n) → ∀ e ∈ m.writeList a bs, e.1 < n := by
  induction bs with
  | nil => intro m a _ h; exact h
  | cons b rest ih =>
    intro m a hn h
    simp only [List.length_cons] at hn
    refine ih (a + 1) (by omega) fun e he => ?_
    rcases Memory.mem_write he with rfl | he
    · show a < n
      omega
    · exact h e he

/-- Both buffers of the reset state are canonical. -/
theorem State.reset_buffers_wf : State.reset.pbuf.wf ∧ State.reset.rxbuf.wf := by decide

end Sys2Proof.Machine
end

