-- ==== Sys2Proof/Laws/Bytes.lean ====
section
/-! SUPPORT. Bytes and byte sequences: halves of a number, token bytes, frame lengths. -/

namespace Sys2Proof.Machine

/-- The high byte of a number is its quotient by 256. -/
theorem hi_eq (n : Half) : hi n = BitVec.ofNat 8 (n.toNat / 256) := by
  apply BitVec.eq_of_toNat_eq
  simp [hi, BitVec.extractLsb'_toNat, Nat.shiftRight_eq_div_pow]

/-- The low byte of a number is its remainder by 256. -/
theorem lo_eq (n : Half) : lo n = BitVec.ofNat 8 (n.toNat % 256) := by
  apply BitVec.eq_of_toNat_eq
  simp [lo, BitVec.extractLsb'_toNat]

/-- The two bytes joined are the exact number 256 * h + l. -/
theorem join_toNat (h l : Byte) : (join h l).toNat = 256 * h.toNat + l.toNat := by
  have hh := h.isLt
  have hl := l.isLt
  have e : (join h l).toNat = (h.toNat <<< 8) ||| l.toNat := by
    simp only [join, BitVec.toNat_or, BitVec.toNat_shiftLeft, BitVec.toNat_setWidth]
    rw [Nat.mod_eq_of_lt (by omega : h.toNat < 2 ^ 16), Nat.mod_eq_of_lt (by omega : l.toNat < 2 ^ 16),
      Nat.mod_eq_of_lt]
    rw [Nat.shiftLeft_eq]; omega
  rw [e, ← Nat.shiftLeft_add_eq_or_of_lt (by omega), Nat.shiftLeft_eq]
  omega

/-- A number is the join of its halves. -/
theorem join_hi_lo (n : Half) : join (hi n) (lo n) = n := by
  apply BitVec.eq_of_toNat_eq
  have := n.isLt
  rw [join_toNat, hi_eq, lo_eq]
  simp only [BitVec.toNat_ofNat]
  omega

/-- Zero extension keeps the value. -/
theorem zext16_toNat (b : Byte) : (zext16 b).toNat = b.toNat := by
  have := b.isLt
  simp only [zext16, BitVec.toNat_setWidth]
  omega

/-- Tokens are two bytes each. -/
theorem tokenBytes_length (ts : List Token) : (tokenBytes ts).length = 2 * ts.length := by
  induction ts with
  | nil => rfl
  | cons t rest ih => simp only [tokenBytes, List.flatMap_cons, List.length_append, List.length_cons,
      List.length_nil] at ih ⊢; omega

/-- Pairing the bytes of tokens gives the tokens back. -/
theorem pairTokens_tokenBytes (ts : List Token) : pairTokens (tokenBytes ts) = ts := by
  induction ts with
  | nil => rfl
  | cons t rest ih => simp only [tokenBytes, List.flatMap_cons, List.cons_append, List.nil_append,
      pairTokens] at ih ⊢; rw [ih]

theorem frameBody_length (op : Byte) (p : List Byte) : (frameBody op p).length = p.length + 3 := by
  simp [frameBody]

/-- The frame builder inside its domain. -/
theorem buildFrame_eq {op : Byte} {p : List Byte} (h : p.length ≤ 255) :
    buildFrame op p = some (frameBody op p ++ [checksum (frameBody op p)]) := by
  simp [buildFrame, Config.payloadMax, h]

end Sys2Proof.Machine
end

