-- ==== Sys2Proof/Laws/Ops.lean ====
section
/-! SUPPORT. One lemma per shared operation that says what it can do, and the inversion of `exec`:
the shapes of the state a command leaves. Later proofs cite these. -/

namespace Sys2Proof.Machine

@[simp] theorem andThen_next (s : State) (f : State → Result) : andThen (.next s) f = f s := rfl
@[simp] theorem andThen_fault (e : Fault) (f : State → Result) : andThen (.fault e) f = .fault e := rfl
@[simp] theorem andThen_refused (r : Refusal) (f : State → Result) :
    andThen (.refused r) f = .refused r := rfl

/-! ### Writes -/

/-- A write that returns was accepted whole. -/
theorem acceptedCount_of_returns {n : Nat} {s : State} (h : writeReturns n s = true) :
    acceptedCount n s.txRoom = n := by
  unfold writeReturns at h
  unfold acceptedCount
  split at h <;> simp_all

/-- Why a write does not return: the transport accepts only so many bytes more. -/
theorem writeReturns_eq_false {n : Nat} {s : State} :
    writeReturns n s = false ↔ ∃ r, s.txRoom = some r ∧ r < n := by
  unfold writeReturns
  split <;> simp_all

@[simp] theorem acceptedCount_none (n : Nat) : acceptedCount n none = n := rfl
@[simp] theorem acceptedCount_some (n r : Nat) : acceptedCount n (some r) = min n r := rfl
@[simp] theorem acceptedCount_zero (room : Option Nat) : acceptedCount 0 room = 0 := by
  cases room <;> simp

/-- What two writes in a row accept is what one write of both accepts. -/
theorem acceptedCount_add (a b : Nat) (room : Option Nat) :
    acceptedCount (a + b) room = acceptedCount a room + acceptedCount b (room.map (· - a)) := by
  cases room with
  | none => rfl
  | some r => simp only [acceptedCount_some, Option.map_some]; omega

/-- The bytes of two writes in a row. -/
theorem take_accepted_append (a b : List Byte) (room : Option Nat) :
    (a ++ b).take (acceptedCount (a.length + b.length) room)
      = a.take (acceptedCount a.length room) ++ b.take (acceptedCount b.length (room.map (· - a.length))) := by
  rw [acceptedCount_add, List.take_append]
  cases room with
  | none => simp
  | some r =>
    simp only [acceptedCount_some, Option.map_some]
    by_cases hr : a.length ≤ r
    · rw [Nat.min_eq_left hr, Nat.add_sub_cancel_left, List.take_of_length_le (Nat.le_add_right ..), List.take_length]
    · rw [show r - a.length = 0 by omega, Nat.min_zero, Nat.add_zero, List.take_zero,
        show min a.length r - a.length = 0 by omega, List.take_zero]

/-- A complete frame in front of its transmission (40_checksum_and_frame.md R82). -/
def frameOf (op : Byte) (p : List Byte) : List Byte := frameBody op p ++ [checksum (frameBody op p)]

theorem frameOf_length (op : Byte) (p : List Byte) : (frameOf op p).length = p.length + 4 := by
  simp [frameOf, frameBody_length]

/-- The state after a write phase that ended. -/
def sentState (op : Byte) (p : List Byte) (s : State) : State :=
  { s with
    tx := s.tx ++ frameOf op p, txRoom := s.txRoom.map (· - (p.length + 4)), phase := .write
    idx := BitVec.ofNat 9 (3 + p.length), acc := checksum (frameBody op p) }

/-- The state of a write phase that never ends: `r` bytes of the frame were accepted (70 R192 (d)). -/
def stalledState (f : List Byte) (r : Nat) (s : State) : State :=
  { s with
    tx := s.tx ++ f.take r, txRoom := some 0, phase := .write
    idx := BitVec.ofNat 9 r, acc := checksum (f.take r) }

/-- The write phase where the transport accepts the frame. -/
theorem writePhase_whole {op : Byte} {p : List Byte} {rest : State → State} {s : State}
    (h : writeReturns (p.length + 4) s = true) :
    writePhase (frameOf op p) rest s = rest (sentState op p s) := by
  have hl := frameOf_length op p
  have ha := acceptedCount_of_returns h
  have hb : (frameOf op p).take (p.length + 3) = frameBody op p := by
    rw [frameOf, ← frameBody_length op p, List.take_left]
  rw [writePhase, hl, if_pos h]
  simp only [handOver, txWrite, sentState, hl, ha, hb, show p.length + 4 - 1 = p.length + 3 by omega,
    show min (p.length + 4) (p.length + 3) = p.length + 3 by omega,
    List.take_of_length_le (Nat.le_of_eq hl), Nat.add_comm 3]

/-- The write phase where the transport accepts less than the frame. -/
theorem writePhase_short {f : List Byte} {rest : State → State} {s : State} {r : Nat}
    (h : s.txRoom = some r) (hr : r < f.length) : writePhase f rest s = stalledState f r s := by
  rw [writePhase, if_neg (by rw [Bool.not_eq_true, writeReturns_eq_false]; exact ⟨r, h, hr⟩)]
  simp only [handOver, txWrite, stalledState, acceptedCount_some, h, Option.map_some,
    show min f.length r = r by omega, show min r (f.length - 1) = r by omega,
    show r - f.length = 0 by omega]

/-- Every write phase is one of the two. -/
theorem writePhase_cases (op : Byte) (p : List Byte) (rest : State → State) (s : State) :
    (writeReturns (p.length + 4) s = true ∧ writePhase (frameOf op p) rest s = rest (sentState op p s)) ∨
    ∃ r, s.txRoom = some r ∧ r < p.length + 4 ∧
      writePhase (frameOf op p) rest s = stalledState (frameOf op p) r s := by
  cases h : writeReturns (p.length + 4) s with
  | true => exact .inl ⟨rfl, writePhase_whole h⟩
  | false =>
    obtain ⟨r, h1, h2⟩ := writeReturns_eq_false.1 h
    exact .inr ⟨r, h1, h2, writePhase_short h1 (by rw [frameOf_length]; exact h2)⟩

/-- Sending a frame inside the frame builder's domain. -/
theorem sendFrame_next {op : Byte} {p : List Byte} (h : p.length ≤ 255) (rest : State → State) (s : State) :
    sendFrame op p rest s = .next (writePhase (frameOf op p) rest s) := by
  simp [sendFrame, buildFrame_eq h, frameOf]

/-- A fire-and-forget command has a next state inside the frame builder's domain. -/
theorem fireAndForget_next {op : Byte} {p : List Byte} (h : p.length ≤ 255) (s : State) :
    fireAndForget op p s = .next (writePhase (frameOf op p) (finish 0x0000#16) (accept s)) :=
  sendFrame_next h _ _

/-- A query always has a next state. -/
theorem query_next (op : Byte) (cls : RespClass) (v : Half) (s : State) :
    query op cls v s = .next (writePhase (frameOf op []) (readPhase cls v) (accept s)) :=
  sendFrame_next (by simp) _ _

/-- The read phase by the transport's answer. -/
theorem readPhase_never {cls : RespClass} {v : Half} {s : State}
    (h : nextAnswer (cls.readLength s.par) s = .never) :
    readPhase cls v s = { s with phase := .read } := by
  simp [readPhase, h]

theorem readPhase_bytes {cls : RespClass} {v : Half} {s : State} {bs : List Byte}
    (h : nextAnswer (cls.readLength s.par) s = .bytes bs) :
    readPhase cls v s = judgeResponse cls (cls.readLength s.par) v (bs.take (cls.readLength s.par))
      (rxAnswered (cls.readLength s.par) bs { s with phase := .read }) := by
  simp [readPhase, h]

/-- RXCNT counts up to 7 bytes (10_state.md R30). -/
theorem obtainedCount_toNat {k : Nat} (h : k ≤ 7) (reads : Nat) : (obtainedCount k reads).toNat = k := by
  rw [obtainedCount, if_pos (by omega), BitVec.toNat_ofNat]
  omega

/-- A judged response ends the command: only RESULT, ERR, PHASE and BUSY are written (R172, R85). -/
theorem judgeResponse_eq (cls : RespClass) (n : Nat) (v : Half) (bs : List Byte) (s : State) :
    ∃ r e, judgeResponse cls n v bs s = { s with result := r, err := e, phase := .idle, busy := false } := by
  unfold judgeResponse
  split
  · exact ⟨_, _, rfl⟩
  · split <;> exact ⟨_, _, rfl⟩

/-- The verdict on at least one byte is the checksum test (45_query_commands.md R146). -/
theorem responseValid_of_pos {bs : List Byte} (h : 0 < bs.length) (s : State) :
    responseValid bs s = validate bs := by
  cases bs with
  | nil => simp at h
  | cons b rest => rfl

/-- A query whose frame was sent and whose read never returns stays in READ (70 R192 (b)). -/
theorem query_never {op : Byte} {cls : RespClass} {v : Half} {s : State} (hr : writeReturns 4 s = true)
    (h : nextAnswer (cls.readLength s.par) s = .never) :
    query op cls v s = .next { sentState op [] (accept s) with phase := .read } := by
  rw [query_next, writePhase_whole (p := []) (s := accept s) hr,
    readPhase_never (show nextAnswer _ (sentState op [] (accept s)) = _ from h)]

/-- A query whose frame was sent and whose read is answered is judged by the bytes obtained (R151). -/
theorem query_bytes {op : Byte} {cls : RespClass} {v : Half} {s : State} {bs : List Byte}
    (hr : writeReturns 4 s = true) (h : nextAnswer (cls.readLength s.par) s = .bytes bs) :
    query op cls v s = .next (judgeResponse cls (cls.readLength s.par) v (bs.take (cls.readLength s.par))
      (rxAnswered (cls.readLength s.par) bs { sentState op [] (accept s) with phase := .read })) := by
  rw [query_next, writePhase_whole (p := []) (s := accept s) hr,
    readPhase_bytes (show nextAnswer _ (sentState op [] (accept s)) = _ from h)]
  rfl

/-- What a query reads: RLEN8 or 6 bytes (45_query_commands.md R149). -/
theorem readLength_cases (cls : RespClass) (par : Params) :
    cls.readLength par = par.rlen8 ∨ cls.readLength par = 6 := by
  cases cls with
  | resp8 => exact .inl rfl
  | resp16 => exact .inr rfl

/-- The state in which a path command starts its write phase (43_path_commands.md R125). -/
def pathAssembled (d : Byte) (p : List Byte) (s : State) : State :=
  { accept s with
    stream := []
    pbuf := Memory.writeList [] 0 (pathPayload d p s.cfg.pathUpper)
    plen := BitVec.ofNat 8 (pathPayload d p s.cfg.pathUpper).length }

/-- A path command by its admission (R124). -/
theorem pathCommand_eq (op d : Byte) (p : List Byte) (s : State) :
    pathCommand op d p s =
      match pathAdmission d p s.cfg.pathUpper with
      | some r => .refused r
      | none =>
        match p with
        | [] => .next (silentNoOp s)
        | _ :: _ =>
          .next (writePhase (frameOf op (pathPayload d p s.cfg.pathUpper)) (finish 0x0000#16)
            (pathAssembled d p s)) := by
  cases p with
  | nil => rfl
  | cons c rest =>
    simp only [pathCommand, pathAdmission]
    split
    · rfl
    · split
      · rfl
      · rename_i h
        rw [sendFrame_next (by simpa [Config.payloadMax] using h)]
        rfl

/-! ### Streaming -/

theorem runningSum_append (acc : Byte) (a b : List Byte) :
    runningSum acc (a ++ b) = runningSum (runningSum acc a) b := by
  simp [runningSum]

/-- The running checksum from 0 is the checksum (R81 (b)). -/
theorem runningSum_toNat (bs : List Byte) : ∀ acc : Byte,
    (runningSum acc bs).toNat = (acc.toNat + (bs.map BitVec.toNat).sum) % 256 := by
  induction bs with
  | nil => intro acc; have := acc.isLt; simp [runningSum]; omega
  | cons b rest ih =>
    intro acc
    show (runningSum (acc + b) rest).toNat = _
    rw [ih, BitVec.toNat_add, List.map_cons, List.sum_cons]
    omega

/-- From 0 it is the checksum of the whole (40_checksum_and_frame.md R80, R81 (b)). -/
theorem runningSum_eq_checksum (bs : List Byte) : runningSum 0#8 bs = checksum bs := by
  apply BitVec.eq_of_toNat_eq
  rw [runningSum_toNat]
  simp [checksum]

/-- Streaming in pieces is streaming the whole (20_memory.md R41, R81 (b)). -/
theorem streamBytes_streamBytes (a b : List Byte) (s : State) :
    streamBytes b (streamBytes a s) = streamBytes (a ++ b) s := by
  have h : (s.txRoom.map (· - a.length)).map (· - b.length) = s.txRoom.map (· - (a.length + b.length)) := by
    cases s.txRoom <;> simp [Nat.sub_sub]
  simp only [streamBytes, txWrite, List.length_append, take_accepted_append, runningSum_append,
    List.append_assoc, h]
  simp only [acceptedCount_add, BitVec.add_assoc, BitVec.ofNat_add]

/-- A frame streamed from its start is a frame handed over (R81 (b), 44_combination_play.md R137). -/
theorem streamChecksum_streamBytes (op : Byte) (p : List Byte) (s : State) (hp : s.phase = .write)
    (hi : s.idx = 0#9) (ha : s.acc = 0#8) :
    streamChecksum (streamBytes (frameBody op p) s) = writePhase (frameOf op p) (finish 0x0000#16) s := by
  have hc := frameBody_length op p
  have hf := frameOf_length op p
  cases hw : writeReturns (p.length + 4) s with
  | true =>
    have h3 : acceptedCount (p.length + 3) s.txRoom = p.length + 3 := by
      revert hw; unfold writeReturns; cases s.txRoom with
      | none => exact fun _ => rfl
      | some r => intro hw; simp only [decide_eq_true_eq] at hw; simp only [acceptedCount_some]; omega
    have h1 : writeReturns 1 (streamBytes (frameBody op p) s) = true := by
      revert hw; simp only [writeReturns, streamBytes_txRoom, hc]; cases s.txRoom with
      | none => exact fun _ => rfl
      | some r => intro hw; simp only [Option.map_some, decide_eq_true_eq] at hw ⊢; omega
    have hr : (s.txRoom.map (· - (p.length + 3))).map (· - 1) = s.txRoom.map (· - (p.length + 4)) := by
      cases s.txRoom <;> simp [Nat.sub_sub]
    have ht := acceptedCount_of_returns h1
    simp only [streamBytes_txRoom, hc] at ht
    rw [writePhase_whole hw, streamChecksum, if_pos h1]
    simp only [finish, sentState, txWrite, streamBytes, hc, h3, hi, ha, hp, hr, ht, frameOf, runningSum_eq_checksum,
      List.take_of_length_le (Nat.le_of_eq hc), List.length_singleton, List.take_succ_cons, List.take_zero,
      List.append_assoc, BitVec.zero_add, Nat.add_comm 3]
  | false =>
    obtain ⟨r, hr, hlt⟩ := writeReturns_eq_false.1 hw
    have h1 : writeReturns 1 (streamBytes (frameBody op p) s) = false := by
      simp only [writeReturns, streamBytes_txRoom, hc, hr, Option.map_some, decide_eq_false_iff_not]; omega
    have ht : (frameOf op p).take r = (frameBody op p).take r := by
      rw [frameOf, List.take_append_of_le_length (by omega)]
    rw [writePhase_short hr (by omega), streamChecksum, if_neg (by simp [h1])]
    simp only [stalledState, txWrite, streamBytes, hc, hi, ha, hp, hr, ht, runningSum_eq_checksum,
      acceptedCount_some, Option.map_some, show min (p.length + 3) r = r by omega,
      show r - (p.length + 3) = 0 by omega, BitVec.zero_add]

/-- The token loop streams the token bytes and consumes them (44_combination_play.md R136). -/
theorem streamTokens_eq (ts : List Token) : ∀ s : State, streamTokens ts s =
    streamBytes (tokenBytes ts) { s with stream := s.stream.drop (acceptedCount (2 * ts.length) s.txRoom) } := by
  induction ts with
  | nil =>
    intro s
    simp [streamTokens, tokenBytes, streamBytes, txWrite, runningSum]
  | cons t rest ih =>
    intro s
    have hl : 2 * (t :: rest).length = 2 + 2 * rest.length := by simp; omega
    have e : ({ streamToken t s with
        stream := (streamToken t s).stream.drop (acceptedCount (2 * rest.length) (streamToken t s).txRoom) } : State) =
        streamBytes [t.c0, t.c1]
          { s with stream := s.stream.drop (acceptedCount (2 * (t :: rest).length) s.txRoom) } := by
      rw [hl, acceptedCount_add, ← List.drop_drop]
      rfl
    rw [show streamTokens (t :: rest) s = streamTokens rest (streamToken t s) from rfl, ih, e,
      streamBytes_streamBytes]
    rfl

/-- COMBINATION_PLAY inside its domain is the write phase of its whole frame: streaming makes no
difference to what is handed over (44_combination_play.md R137), and S keeps the token bytes that were not
(log 24). -/
theorem execCombinationPlay_next {ts : List Token} (h0 : ts ≠ []) (h : ts.length ≤ 127) (s : State) :
    execCombinationPlay ts s = .next (writePhase (frameOf 0x1B#8 (tokenBytes ts)) (finish 0x0000#16)
      { accept s with
        stream := (tokenBytes ts).drop (acceptedCount (2 * ts.length + 4) s.txRoom - 3) }) := by
  have hl := tokenBytes_length ts
  have hb : [Config.header, 0x1B#8, BitVec.ofNat 8 (2 * ts.length)] ++ tokenBytes ts
      = frameBody 0x1B#8 (tokenBytes ts) := by simp [frameBody, hl]
  have hc := frameBody_length 0x1B#8 (tokenBytes ts)
  have e : execCombinationPlay ts s = .next (streamChecksum (streamBytes (frameBody 0x1B#8 (tokenBytes ts))
      { accept s with
        phase := .write
        stream := (tokenBytes ts).drop (acceptedCount (2 * ts.length) (s.txRoom.map (· - 3))) })) := by
    cases ts with
    | nil => exact absurd rfl h0
    | cons t rest =>
      rw [execCombinationPlay, if_neg (show ¬ Config.tokensMax < _ from Nat.not_lt.2 h), streamTokens_eq,
        ← hb, ← streamBytes_streamBytes]
      rfl
  rw [e, streamChecksum_streamBytes _ _ _ rfl rfl rfl]
  have hd : (tokenBytes ts).drop (acceptedCount (2 * ts.length) (s.txRoom.map (· - 3)))
      = (tokenBytes ts).drop (acceptedCount (2 * ts.length + 4) s.txRoom - 3) := by
    cases s.txRoom with
    | none => rw [List.drop_of_length_le, List.drop_of_length_le] <;> simp [hl]
    | some r =>
      simp only [acceptedCount_some, Option.map_some]
      by_cases hw : 2 * ts.length + 4 ≤ r
      · rw [List.drop_of_length_le, List.drop_of_length_le] <;> rw [hl] <;> omega
      · congr 1; omega
  rw [hd]
  rfl

/-- The shapes of the state a command leaves: nothing sent (R168), a frame handed over and nothing read
(R86; a path command assembles its payload first, R125; COMBINATION_PLAY takes it from S, R136), or a
query (R151). -/
inductive Leaves (s : State) : State → Prop where
  | silent : Leaves s (silentNoOp s)
  | fired (op : Byte) (p : List Byte) (h : p.length ≤ 3) :
      Leaves s (writePhase (frameOf op p) (finish 0x0000#16) (accept s))
  | path (op d : Byte) (p : List Byte) (h : (pathPayload d p s.cfg.pathUpper).length ≤ 255) :
      Leaves s (writePhase (frameOf op (pathPayload d p s.cfg.pathUpper)) (finish 0x0000#16)
        (pathAssembled d p s))
  | tokens (ts : List Token) (h : ts.length ≤ 127) :
      Leaves s (writePhase (frameOf 0x1B#8 (tokenBytes ts)) (finish 0x0000#16)
        { accept s with
          stream := (tokenBytes ts).drop (acceptedCount (2 * ts.length + 4) s.txRoom - 3) })
  | queried (op : Byte) (cls : RespClass) (v : Half) :
      Leaves s (writePhase (frameOf op []) (readPhase cls v) (accept s))

theorem pathCommand_leaves {op d : Byte} {p : List Byte} {s t : State}
    (h : pathCommand op d p s = .next t) : Leaves s t := by
  rw [pathCommand_eq] at h
  split at h
  · cases h
  · rename_i ha
    cases p with
    | nil => cases h; exact .silent
    | cons c rest =>
      cases h
      refine .path op d _ ?_
      simp only [pathAdmission] at ha
      split at ha
      · cases ha
      · split at ha
        · cases ha
        · rename_i hn; simpa [Config.payloadMax] using hn

theorem setCycleTimes_leaves {n : Half} {s t : State} (h : setCycleTimes n s = .next t) : Leaves s t := by
  unfold setCycleTimes at h
  split at h
  · cases h
  · have hl : (cyclePayload s.cfg.cycleW n).length ≤ 3 := by
      cases s.cfg.cycleW <;> simp [cyclePayload]
    rw [fireAndForget_next (by omega)] at h
    cases h
    exact .fired _ _ hl

theorem fireAndForget_leaves {op : Byte} {p : List Byte} {s t : State} (hp : p.length ≤ 3)
    (h : fireAndForget op p s = .next t) : Leaves s t := by
  rw [fireAndForget_next (by omega)] at h
  cases h
  exact .fired _ _ hp

theorem query_leaves {op : Byte} {cls : RespClass} {v : Half} {s t : State}
    (h : query op cls v s = .next t) : Leaves s t := by
  rw [query_next] at h
  cases h
  exact .queried op cls v

theorem execCombinationPlay_leaves {ts : List Token} {s t : State}
    (h : execCombinationPlay ts s = .next t) : Leaves s t := by
  cases ts with
  | nil => cases h; exact .silent
  | cons a rest =>
    by_cases hn : (a :: rest).length ≤ 127
    · rw [execCombinationPlay_next (by simp) hn] at h
      cases h
      exact .tokens _ hn
    · rw [execCombinationPlay, if_pos (show Config.tokensMax < _ from Nat.lt_of_not_le hn)] at h
      cases h

/-! ### The meaning of each command as its shared operation -/

theorem exec_queryPlayState (s : State) :
    exec .queryPlayState s = query 0x01#8 .resp8 (zext16 s.par.psFail) s := rfl
theorem exec_play (s : State) :
    exec .play s = fireAndForget 0x02#8 [] s := rfl
theorem exec_pause (s : State) :
    exec .pause s = fireAndForget 0x03#8 [] s := rfl
theorem exec_stop (s : State) :
    exec .stop s = fireAndForget 0x04#8 [] s := rfl
theorem exec_previous (s : State) :
    exec .previous s = fireAndForget 0x05#8 [] s := rfl
theorem exec_next (s : State) :
    exec .next s = fireAndForget 0x06#8 [] s := rfl
theorem exec_playByNumber (n : Half) (s : State) :
    exec (.playByNumber n) s = fireAndForget 0x07#8 (numPayload n) s := rfl
theorem exec_playByPath (d : Byte) (p : List Byte) (s : State) :
    exec (.playByPath d p) s = pathCommand 0x08#8 d p s := rfl
theorem exec_queryPlayingDevice (s : State) :
    exec .queryPlayingDevice s = query 0x0A#8 .resp8 (zext16 s.par.devFail) s := rfl
theorem exec_setDevice (d : Byte) (s : State) :
    exec (.setDevice d) s = fireAndForget 0x0B#8 [d] s := rfl
theorem exec_interludeByNumber (d : Byte) (n : Half) (s : State) :
    exec (.interludeByNumber d n) s = fireAndForget 0x0B#8 (devNumPayload d n) s := rfl
theorem exec_querySoundCount (s : State) :
    exec .querySoundCount s = query 0x0C#8 .resp16 Config.countFail s := rfl
theorem exec_queryPlayingSound (s : State) :
    exec .queryPlayingSound s = query 0x0D#8 .resp16 Config.countFail s := rfl
theorem exec_previousDirLast (s : State) :
    exec .previousDirLast s = fireAndForget 0x0E#8 [] s := rfl
theorem exec_previousDirFirst (s : State) :
    exec .previousDirFirst s = fireAndForget 0x0F#8 [] s := rfl
theorem exec_stopInterlude (s : State) :
    exec .stopInterlude s = fireAndForget 0x10#8 [] s := rfl
theorem exec_queryDirFirst (s : State) :
    exec .queryDirFirst s = query 0x11#8 .resp16 Config.countFail s := rfl
theorem exec_queryDirCount (s : State) :
    exec .queryDirCount s = query 0x12#8 .resp16 Config.countFail s := rfl
theorem exec_setVolume (v : Byte) (s : State) :
    exec (.setVolume v) s = fireAndForget 0x13#8 [v] s := rfl
theorem exec_volumeUp (s : State) :
    exec .volumeUp s = fireAndForget 0x14#8 [] s := rfl
theorem exec_volumeDown (s : State) :
    exec .volumeDown s = fireAndForget 0x15#8 [] s := rfl
theorem exec_interludeByPath (d : Byte) (p : List Byte) (s : State) :
    exec (.interludeByPath d p) s = pathCommand 0x17#8 d p s := rfl
theorem exec_setCycleMode (m : Byte) (s : State) :
    exec (.setCycleMode m) s = fireAndForget 0x18#8 [m] s := rfl
theorem exec_setCycleTimesW1 (n : Half) (s : State) :
    exec (.setCycleTimesW1 n) s = setCycleTimes n s := rfl
theorem exec_setCycleTimesW2 (n : Half) (s : State) :
    exec (.setCycleTimesW2 n) s = setCycleTimes n s := rfl
theorem exec_setEq (e : Byte) (s : State) :
    exec (.setEq e) s = fireAndForget 0x1A#8 [e] s := rfl
theorem exec_combinationPlay (ts : List Token) (s : State) :
    exec (.combinationPlay ts) s = execCombinationPlay ts s := rfl
theorem exec_endCombinationPlay (s : State) :
    exec .endCombinationPlay s = fireAndForget 0x1C#8 [] s := rfl
theorem exec_select (n : Half) (s : State) :
    exec (.select n) s = fireAndForget 0x1F#8 (numPayload n) s := rfl

/-- The inversion of `exec`: every command leaves one of the shapes. -/
theorem exec_leaves {i : Instr} {s t : State} (h : exec i s = .next t) : Leaves s t := by
  cases i with
  | queryPlayState => exact query_leaves ((exec_queryPlayState s).symm.trans h)
  | play => exact fireAndForget_leaves (by decide) ((exec_play s).symm.trans h)
  | pause => exact fireAndForget_leaves (by decide) ((exec_pause s).symm.trans h)
  | stop => exact fireAndForget_leaves (by decide) ((exec_stop s).symm.trans h)
  | previous => exact fireAndForget_leaves (by decide) ((exec_previous s).symm.trans h)
  | next => exact fireAndForget_leaves (by decide) ((exec_next s).symm.trans h)
  | playByNumber n => exact fireAndForget_leaves (by simp [numPayload]) ((exec_playByNumber n s).symm.trans h)
  | playByPath d p => exact pathCommand_leaves h
  | queryPlayingDevice => exact query_leaves ((exec_queryPlayingDevice s).symm.trans h)
  | setDevice d => exact fireAndForget_leaves (by simp) ((exec_setDevice d s).symm.trans h)
  | interludeByNumber d n => exact fireAndForget_leaves (by simp [devNumPayload]) ((exec_interludeByNumber d n s).symm.trans h)
  | querySoundCount => exact query_leaves ((exec_querySoundCount s).symm.trans h)
  | queryPlayingSound => exact query_leaves ((exec_queryPlayingSound s).symm.trans h)
  | previousDirLast => exact fireAndForget_leaves (by decide) ((exec_previousDirLast s).symm.trans h)
  | previousDirFirst => exact fireAndForget_leaves (by decide) ((exec_previousDirFirst s).symm.trans h)
  | stopInterlude => exact fireAndForget_leaves (by decide) ((exec_stopInterlude s).symm.trans h)
  | queryDirFirst => exact query_leaves ((exec_queryDirFirst s).symm.trans h)
  | queryDirCount => exact query_leaves ((exec_queryDirCount s).symm.trans h)
  | setVolume v => exact fireAndForget_leaves (by simp) ((exec_setVolume v s).symm.trans h)
  | volumeUp => exact fireAndForget_leaves (by decide) ((exec_volumeUp s).symm.trans h)
  | volumeDown => exact fireAndForget_leaves (by decide) ((exec_volumeDown s).symm.trans h)
  | interludeByPath d p => exact pathCommand_leaves h
  | setCycleMode m => exact fireAndForget_leaves (by simp) ((exec_setCycleMode m s).symm.trans h)
  | setCycleTimesW1 n => exact setCycleTimes_leaves h
  | setCycleTimesW2 n => exact setCycleTimes_leaves h
  | setEq e => exact fireAndForget_leaves (by simp) ((exec_setEq e s).symm.trans h)
  | combinationPlay ts => exact execCombinationPlay_leaves h
  | endCombinationPlay => exact fireAndForget_leaves (by decide) ((exec_endCombinationPlay s).symm.trans h)
  | select n => exact fireAndForget_leaves (by simp [numPayload]) ((exec_select n s).symm.trans h)

end Sys2Proof.Machine
end

