-- ==== Sys2Proof/Laws/PerInstr.lean ====
section
/-! SUPPORT. The family of statements made of every command as syntax (LAWS.json): what its port
presentation looks like. -/

namespace Sys2Proof.Laws.PortShape

open Sys2Proof Sys2Proof.Machine

/-- The port presentation of a well-formed command selects an operation (30_encoding.md R73) and
carries exactly the stream bytes that the command takes (10_state.md R24). -/
def Statement (i : Instr) : Prop :=
  i.wellFormed = true →
    (encodePort i).opsel.toNat < 28 ∧ (encodePort i).stream.length = streamLength (encodePort i)

theorem queryPlayState : Statement .queryPlayState := fun _ => ⟨(by decide : _ < 28), rfl⟩

theorem play : Statement .play := fun _ => ⟨(by decide : _ < 28), rfl⟩

theorem pause : Statement .pause := fun _ => ⟨(by decide : _ < 28), rfl⟩

theorem stop : Statement .stop := fun _ => ⟨(by decide : _ < 28), rfl⟩

theorem previous : Statement .previous := fun _ => ⟨(by decide : _ < 28), rfl⟩

theorem next : Statement .next := fun _ => ⟨(by decide : _ < 28), rfl⟩

theorem playByNumber (n : Half) : Statement (.playByNumber n) := fun _ => ⟨(by decide : (6#5).toNat < 28), rfl⟩

theorem playByPath (d : Byte) (p : List Byte) : Statement (.playByPath d p) := by
  intro h
  have hp : p.length ≤ 255 := by simpa [Instr.wellFormed] using h
  refine ⟨(by decide : (7#5).toNat < 28), ?_⟩
  show p.length = (BitVec.ofNat 8 p.length).toNat
  rw [BitVec.toNat_ofNat, Nat.mod_eq_of_lt (by omega)]

theorem queryPlayingDevice : Statement .queryPlayingDevice := fun _ => ⟨(by decide : _ < 28), rfl⟩

theorem setDevice (d : Byte) : Statement (.setDevice d) := fun _ => ⟨(by decide : (9#5).toNat < 28), rfl⟩

theorem interludeByNumber (d : Byte) (n : Half) : Statement (.interludeByNumber d n) := fun _ => ⟨(by decide : (10#5).toNat < 28), rfl⟩

theorem querySoundCount : Statement .querySoundCount := fun _ => ⟨(by decide : _ < 28), rfl⟩

theorem queryPlayingSound : Statement .queryPlayingSound := fun _ => ⟨(by decide : _ < 28), rfl⟩

theorem previousDirLast : Statement .previousDirLast := fun _ => ⟨(by decide : _ < 28), rfl⟩

theorem previousDirFirst : Statement .previousDirFirst := fun _ => ⟨(by decide : _ < 28), rfl⟩

theorem stopInterlude : Statement .stopInterlude := fun _ => ⟨(by decide : _ < 28), rfl⟩

theorem queryDirFirst : Statement .queryDirFirst := fun _ => ⟨(by decide : _ < 28), rfl⟩

theorem queryDirCount : Statement .queryDirCount := fun _ => ⟨(by decide : _ < 28), rfl⟩

theorem setVolume (v : Byte) : Statement (.setVolume v) := fun _ => ⟨(by decide : (18#5).toNat < 28), rfl⟩

theorem volumeUp : Statement .volumeUp := fun _ => ⟨(by decide : _ < 28), rfl⟩

theorem volumeDown : Statement .volumeDown := fun _ => ⟨(by decide : _ < 28), rfl⟩

theorem interludeByPath (d : Byte) (p : List Byte) : Statement (.interludeByPath d p) := by
  intro h
  have hp : p.length ≤ 255 := by simpa [Instr.wellFormed] using h
  refine ⟨(by decide : (21#5).toNat < 28), ?_⟩
  show p.length = (BitVec.ofNat 8 p.length).toNat
  rw [BitVec.toNat_ofNat, Nat.mod_eq_of_lt (by omega)]

theorem setCycleMode (m : Byte) : Statement (.setCycleMode m) := fun _ => ⟨(by decide : (22#5).toNat < 28), rfl⟩

theorem setCycleTimesW1 (n : Half) : Statement (.setCycleTimesW1 n) := fun _ => ⟨(by decide : (23#5).toNat < 28), rfl⟩

theorem setCycleTimesW2 (n : Half) : Statement (.setCycleTimesW2 n) := fun _ => ⟨(by decide : (23#5).toNat < 28), rfl⟩

theorem setEq (e : Byte) : Statement (.setEq e) := fun _ => ⟨(by decide : (24#5).toNat < 28), rfl⟩

theorem combinationPlay (ts : List Token) : Statement (.combinationPlay ts) := by
  intro h
  have hp : ts.length ≤ 255 := by simpa [Instr.wellFormed] using h
  refine ⟨(by decide : (25#5).toNat < 28), ?_⟩
  show (tokenBytes ts).length = 2 * (BitVec.ofNat 8 ts.length).toNat
  rw [BitVec.toNat_ofNat, Nat.mod_eq_of_lt (by omega), tokenBytes_length]

theorem endCombinationPlay : Statement .endCombinationPlay := fun _ => ⟨(by decide : _ < 28), rfl⟩

theorem select (n : Half) : Statement (.select n) := fun _ => ⟨(by decide : (27#5).toNat < 28), rfl⟩

end Sys2Proof.Laws.PortShape
end

