-- ==== Sys2Proof/Laws/Step.lean ====
section
/-! SUPPORT. The step by the host's next event, and the tick by the phase. -/

namespace Sys2Proof.Machine

theorem step_reset {s : State} {straps : Straps} {rest : List HostEvent}
    (h : s.host = .reset straps :: rest) : step s = resetInput straps { s with host := rest } := by
  simp only [step, h]

theorem step_issue {s : State} {c : PortCmd} {rest : List HostEvent}
    (h : s.host = .issue c :: rest) (hb : s.busy = false) :
    step s = runPort c { s with host := rest } := by
  simp only [step, h, hb, Bool.false_eq_true, if_false]

/-- What a step that goes on has done: applied a reset, executed the command on the port, or nothing. -/
theorem step_cases {s t : State} (h : step s = .next t) :
    (∃ straps rest, s.host = .reset straps :: rest ∧ s.busy = false ∧
      t = { State.reset with
        cfg := straps, par := s.par, host := rest, answers := s.answers, reads := s.reads
        txRoom := s.txRoom }) ∨
    (∃ c rest i, s.host = .issue c :: rest ∧ s.busy = false ∧ decodePort s.cfg.cycleW c = .ok i ∧
      exec i (latch c { s with host := rest }) = .next t) ∨
    (s.host = [] ∧ s.busy = false ∧ t = s) := by
  cases hh : s.host with
  | nil =>
    cases hb : s.busy with
    | true => simp [step, hh, hb] at h
    | false => simp only [step, hh, hb, Bool.false_eq_true, if_false] at h; cases h; exact .inr (.inr ⟨rfl, rfl, rfl⟩)
  | cons e rest =>
    cases e with
    | reset straps =>
      cases hb : s.busy with
      | true => simp [step, hh, resetInput, hb] at h
      | false =>
        simp only [step_reset hh, resetInput, hb, Bool.false_eq_true, if_false] at h
        cases h
        exact .inl ⟨straps, rest, rfl, rfl, rfl⟩
    | issue c =>
      cases hb : s.busy with
      | true => simp [step, hh, hb] at h
      | false =>
        rw [step_issue hh hb] at h
        simp only [runPort] at h
        split at h
        · cases h
        · cases h
        · rename_i i hi
          exact .inr (.inl ⟨c, rest, i, rfl, rfl, hi, h⟩)

end Sys2Proof.Machine
end

