-- ==== Sys2Proof/Tests/Slice0.lean ====
section
/-! SUPPORT. Small tests by decide. Expected values come from the spec: 95_test_vectors.md (S1 to S10
and the tables 2.1 to 2.7) where a section is named, else the rule named. The last part shows for
every obligation with hypotheses concrete data that meet them. -/

namespace Sys2Proof.Tests

set_option Elab.async false

open Sys2Proof Sys2Proof.Machine

/-- An idle block at the vectors' default configuration (95: PATH_UPPER 0, CYCLE_W 1, RLEN8 5), with
sentinels 0xE0 and 0xE1. -/
def idle : State :=
  { State.reset with
    cfg := { pathUpper := false, cycleW := .one }
    par := { rlen8 := 5, psFail := 0xE0#8, devFail := 0xE1#8 } }

/-- The same block with the other straps. -/
def idle2 : State := { idle with cfg := { pathUpper := true, cycleW := .two } }

/-- The idle block whose next read is answered with these bytes. -/
def answering (bs : List Byte) : State := { idle with answers := [.bytes bs] }

/-- What the vectors list of an outcome: the bytes sent, RESULT and ERR. -/
def seen (r : Result) : Option (List Byte × Half × Err) :=
  match r with
  | .next t => some (t.tx, t.result, t.err)
  | .fault _ => none
  | .refused _ => none

/-- The reason of a refusal. -/
def reason (r : Result) : Option Refusal :=
  match r with
  | .refused e => some e
  | .next _ => none
  | .fault _ => none

/-- The reason of a fault. -/
def stopped (r : Result) : Option Fault :=
  match r with
  | .fault e => some e
  | .next _ => none
  | .refused _ => none

/-- Whether an outcome is a next state. -/
def goesOn (r : Result) : Bool :=
  match r with
  | .next _ => true
  | .fault _ => false
  | .refused _ => false

/-- A path of one character repeated, behind the leading slash. -/
def longPath (n : Nat) (c : Byte) : List Byte := slash :: List.replicate n c

/-- The ASCII bytes of a text. -/
def ascii (s : String) : List Byte := s.toList.map fun c => BitVec.ofNat 8 c.toNat

/-- A token of two characters. -/
def token (a b : Char) : Token := ⟨BitVec.ofNat 8 a.toNat, BitVec.ofNat 8 b.toNat⟩

/-! ### Well-formedness: an ill-formed term for each check -/

theorem test_wellFormed_playByPath :
    Instr.wellFormed (.playByPath 0x00#8 (longPath 255 0x61#8)) = false ∧
    Instr.wellFormed (.playByPath 0x00#8 (longPath 254 0x61#8)) = true := by decide +kernel

theorem test_wellFormed_interludeByPath :
    Instr.wellFormed (.interludeByPath 0x00#8 (longPath 255 0x61#8)) = false ∧
    Instr.wellFormed (.interludeByPath 0x00#8 (longPath 254 0x61#8)) = true := by decide +kernel

theorem test_wellFormed_combinationPlay :
    Instr.wellFormed (.combinationPlay (List.replicate 256 ⟨0x39#8, 0x39#8⟩)) = false ∧
    Instr.wellFormed (.combinationPlay (List.replicate 255 ⟨0x39#8, 0x39#8⟩)) = true := by decide +kernel

/-! ### Decoding: a word written out from the spec's encoding of each command (30_encoding.md R62, R69) -/

theorem test_decode_queryPlayState :
    decode [0xAA#8, 0x01#8, 0x00#8] = .ok (.queryPlayState, []) := by decide

theorem test_decode_play :
    decode [0xAA#8, 0x02#8, 0x00#8] = .ok (.play, []) := by decide

theorem test_decode_pause :
    decode [0xAA#8, 0x03#8, 0x00#8] = .ok (.pause, []) := by decide

theorem test_decode_stop :
    decode [0xAA#8, 0x04#8, 0x00#8] = .ok (.stop, []) := by decide

theorem test_decode_previous :
    decode [0xAA#8, 0x05#8, 0x00#8] = .ok (.previous, []) := by decide

theorem test_decode_next :
    decode [0xAA#8, 0x06#8, 0x00#8] = .ok (.next, []) := by decide

theorem test_decode_playByNumber :
    decode [0xAA#8, 0x07#8, 0x02#8, 0x01#8, 0x02#8] = .ok (.playByNumber 0x0102#16, []) := by decide

theorem test_decode_playByPath :
    decode [0xAA#8, 0x08#8, 0x05#8, 0x01#8, 0x2F#8, 0x78#8, 0x2A#8, 0x79#8] =
      .ok (.playByPath 0x01#8 (ascii "/x.y"), []) := by decide

theorem test_decode_queryPlayingDevice :
    decode [0xAA#8, 0x0A#8, 0x00#8] = .ok (.queryPlayingDevice, []) := by decide

theorem test_decode_setDevice :
    decode [0xAA#8, 0x0B#8, 0x01#8, 0x01#8] = .ok (.setDevice 0x01#8, []) := by decide

theorem test_decode_interludeByNumber :
    decode [0xAA#8, 0x0B#8, 0x03#8, 0x01#8, 0x01#8, 0x02#8] =
      .ok (.interludeByNumber 0x01#8 0x0102#16, []) := by decide

theorem test_decode_querySoundCount :
    decode [0xAA#8, 0x0C#8, 0x00#8] = .ok (.querySoundCount, []) := by decide

theorem test_decode_queryPlayingSound :
    decode [0xAA#8, 0x0D#8, 0x00#8] = .ok (.queryPlayingSound, []) := by decide

theorem test_decode_previousDirLast :
    decode [0xAA#8, 0x0E#8, 0x00#8] = .ok (.previousDirLast, []) := by decide

theorem test_decode_previousDirFirst :
    decode [0xAA#8, 0x0F#8, 0x00#8] = .ok (.previousDirFirst, []) := by decide

theorem test_decode_stopInterlude :
    decode [0xAA#8, 0x10#8, 0x00#8] = .ok (.stopInterlude, []) := by decide

theorem test_decode_queryDirFirst :
    decode [0xAA#8, 0x11#8, 0x00#8] = .ok (.queryDirFirst, []) := by decide

theorem test_decode_queryDirCount :
    decode [0xAA#8, 0x12#8, 0x00#8] = .ok (.queryDirCount, []) := by decide

theorem test_decode_setVolume :
    decode [0xAA#8, 0x13#8, 0x01#8, 0x1E#8] = .ok (.setVolume 30#8, []) := by decide

theorem test_decode_volumeUp :
    decode [0xAA#8, 0x14#8, 0x00#8] = .ok (.volumeUp, []) := by decide

theorem test_decode_volumeDown :
    decode [0xAA#8, 0x15#8, 0x00#8] = .ok (.volumeDown, []) := by decide

theorem test_decode_interludeByPath :
    decode [0xAA#8, 0x17#8, 0x04#8, 0x00#8, 0x2F#8, 0x2A#8, 0x2F#8] =
      .ok (.interludeByPath 0x00#8 (ascii "//"), []) := by decide

theorem test_decode_setCycleMode :
    decode [0xAA#8, 0x18#8, 0x01#8, 0x07#8] = .ok (.setCycleMode 7#8, []) := by decide

theorem test_decode_setCycleTimesW1 :
    decode [0xAA#8, 0x19#8, 0x01#8, 0xFF#8] = .ok (.setCycleTimesW1 255#16, []) := by decide

theorem test_decode_setCycleTimesW2 :
    decode [0xAA#8, 0x19#8, 0x02#8, 0x01#8, 0x00#8] = .ok (.setCycleTimesW2 256#16, []) := by decide

theorem test_decode_setEq :
    decode [0xAA#8, 0x1A#8, 0x01#8, 0x04#8] = .ok (.setEq 4#8, []) := by decide

theorem test_decode_combinationPlay :
    decode [0xAA#8, 0x1B#8, 0x04#8, 0x30#8, 0x31#8, 0x30#8, 0x32#8] =
      .ok (.combinationPlay [token '0' '1', token '0' '2'], []) := by decide

theorem test_decode_endCombinationPlay :
    decode [0xAA#8, 0x1C#8, 0x00#8] = .ok (.endCombinationPlay, []) := by decide

theorem test_decode_select :
    decode [0xAA#8, 0x1F#8, 0x02#8, 0x01#8, 0x02#8] = .ok (.select 0x0102#16, []) := by decide

theorem test_decode_refuses :
    decode [0xAA#8, 0x02#8] = .error .truncatedPrefix ∧
    decode [0xAB#8, 0x02#8, 0x00#8] = .error .badHeader ∧
    decode [0xAA#8, 0x09#8, 0x00#8] = .error .unassignedOpcode ∧
    decode [0xAA#8, 0x0B#8, 0x02#8, 0x00#8, 0x00#8] = .error .lengthNotOfFormat ∧
    decode [0xAA#8, 0x07#8, 0x02#8, 0x01#8] = .error .truncatedPayload ∧
    decode [0xAA#8, 0x08#8, 0x03#8, 0x00#8, 0x2F#8, 0x2E#8] = .error .badPathEscape ∧
    decodeFrame [0xAA#8, 0x02#8, 0x00#8] = .error .truncatedChecksum ∧
    decodeFrame [0xAA#8, 0x02#8, 0x00#8, 0xAD#8] = .error .badChecksum ∧
    decodeFrame [0xAA#8, 0x02#8, 0x00#8, 0xAC#8] = .ok (.play, []) := by decide

/-- Rows 1 to 10 of opcode_table.json: the pattern as a word, and the command. -/
def tableFirst : List (Nat × Instr) :=
  [ (0xAA0100, .queryPlayState),
    (0xAA0200, .play),
    (0xAA0300, .pause),
    (0xAA0400, .stop),
    (0xAA0500, .previous),
    (0xAA0600, .next),
    (0xAA0702, .playByNumber 0#16),
    (0xAA0800, .playByPath 0#8 []),
    (0xAA0A00, .queryPlayingDevice),
    (0xAA0B01, .setDevice 0#8) ]

/-- Rows 11 to 20 of opcode_table.json: the pattern as a word, and the command. -/
def tableSecond : List (Nat × Instr) :=
  [ (0xAA0B03, .interludeByNumber 0#8 0#16),
    (0xAA0C00, .querySoundCount),
    (0xAA0D00, .queryPlayingSound),
    (0xAA0E00, .previousDirLast),
    (0xAA0F00, .previousDirFirst),
    (0xAA1000, .stopInterlude),
    (0xAA1100, .queryDirFirst),
    (0xAA1200, .queryDirCount),
    (0xAA1301, .setVolume 0#8),
    (0xAA1400, .volumeUp) ]

/-- Rows 21 to 29 of opcode_table.json: the pattern as a word, and the command. -/
def tableThird : List (Nat × Instr) :=
  [ (0xAA1500, .volumeDown),
    (0xAA1700, .interludeByPath 0#8 []),
    (0xAA1801, .setCycleMode 0#8),
    (0xAA1901, .setCycleTimesW1 0#16),
    (0xAA1902, .setCycleTimesW2 0#16),
    (0xAA1A01, .setEq 0#8),
    (0xAA1B00, .combinationPlay []),
    (0xAA1C00, .endCombinationPlay),
    (0xAA1F02, .select 0#16) ]

theorem test_decodeTableWord :
    (∀ e ∈ tableFirst, decodeTableWord 24 e.1 = some e.2) ∧
    (∀ e ∈ tableSecond, decodeTableWord 24 e.1 = some e.2) ∧
    (∀ e ∈ tableThird, decodeTableWord 24 e.1 = some e.2) := by decide

theorem test_step_runs_tableWords :
    (∀ e ∈ tableFirst, goesOn (step (State.reset.withFetchWord 24 e.1)) = true) ∧
    (∀ e ∈ tableSecond, goesOn (step (State.reset.withFetchWord 24 e.1)) = true) ∧
    (∀ e ∈ tableThird, goesOn (step (State.reset.withFetchWord 24 e.1)) = true) := by decide

/-! ### Checksum, validation, path encoder (S1, S6, 2.1, 2.4) -/

theorem test_checksum :
    checksum [] = 0x00#8 ∧ checksum [0xFF#8, 0x01#8] = 0x00#8 ∧
    checksum [0xFF#8, 0xFF#8, 0xFF#8] = 0xFD#8 ∧
    checksum [0xAA#8, 0x07#8, 0x02#8, 0xFF#8, 0xFF#8] = 0xB1#8 := by decide

theorem test_validate :
    validate [0xAA#8, 0x0C#8, 0x02#8, 0x00#8, 0x05#8, 0xBD#8] = true ∧
    validate [0xAA#8, 0x0C#8, 0x02#8, 0x05#8, 0x00#8, 0xBD#8] = true ∧
    validate [0xAB#8, 0x0C#8, 0x02#8, 0x00#8, 0x05#8, 0xBD#8] = false ∧
    validate [0xAA#8, 0x0C#8, 0x02#8, 0x80#8, 0x05#8, 0xBD#8] = false ∧
    validate [0xAA#8, 0x0C#8, 0x02#8, 0x00#8, 0x05#8, 0xBC#8] = false := by decide

theorem test_encodePath :
    encodePath (ascii "/A/B/C.D.E") false = ascii "/A*/B*/C*D*E" ∧
    encodePath (ascii "/MUSIC/A.B/x.wav") true = ascii "/MUSIC*/A*B*/X*WAV" ∧
    encodePath (ascii "/x*y") false = encodePath (ascii "/x.y") false := by decide

/-! ### The commands (2.2 to 2.6) -/

theorem test_play :
    seen (exec .play idle) = some ([0xAA#8, 0x02#8, 0x00#8, 0xAC#8], 0#16, .none) := by decide

theorem test_pause :
    seen (exec .pause idle) = some ([0xAA#8, 0x03#8, 0x00#8, 0xAD#8], 0#16, .none) := by decide

theorem test_stop :
    seen (exec .stop idle) = some ([0xAA#8, 0x04#8, 0x00#8, 0xAE#8], 0#16, .none) := by decide

theorem test_previous :
    seen (exec .previous idle) = some ([0xAA#8, 0x05#8, 0x00#8, 0xAF#8], 0#16, .none) := by decide

theorem test_next :
    seen (exec .next idle) = some ([0xAA#8, 0x06#8, 0x00#8, 0xB0#8], 0#16, .none) := by decide

theorem test_previousDirLast :
    seen (exec .previousDirLast idle) = some ([0xAA#8, 0x0E#8, 0x00#8, 0xB8#8], 0#16, .none) := by decide

theorem test_previousDirFirst :
    seen (exec .previousDirFirst idle) =
      some ([0xAA#8, 0x0F#8, 0x00#8, 0xB9#8], 0#16, .none) := by decide

theorem test_stopInterlude :
    seen (exec .stopInterlude idle) = some ([0xAA#8, 0x10#8, 0x00#8, 0xBA#8], 0#16, .none) := by decide

theorem test_volumeUp :
    seen (exec .volumeUp idle) = some ([0xAA#8, 0x14#8, 0x00#8, 0xBE#8], 0#16, .none) := by decide

theorem test_volumeDown :
    seen (exec .volumeDown idle) = some ([0xAA#8, 0x15#8, 0x00#8, 0xBF#8], 0#16, .none) := by decide

theorem test_endCombinationPlay :
    seen (exec .endCombinationPlay idle) =
      some ([0xAA#8, 0x1C#8, 0x00#8, 0xC6#8], 0#16, .none) := by decide

theorem test_playByNumber :
    seen (exec (.playByNumber 0x01FF#16) idle) =
      some ([0xAA#8, 0x07#8, 0x02#8, 0x01#8, 0xFF#8, 0xB3#8], 0#16, .none) := by decide

theorem test_select :
    seen (exec (.select 0x0102#16) idle) =
      some ([0xAA#8, 0x1F#8, 0x02#8, 0x01#8, 0x02#8, 0xCE#8], 0#16, .none) := by decide

theorem test_setVolume :
    seen (exec (.setVolume 31#8) idle) =
      some ([0xAA#8, 0x13#8, 0x01#8, 0x1F#8, 0xDD#8], 0#16, .none) := by decide

theorem test_setCycleMode :
    seen (exec (.setCycleMode 255#8) idle) =
      some ([0xAA#8, 0x18#8, 0x01#8, 0xFF#8, 0xC2#8], 0#16, .none) := by decide

theorem test_setEq :
    seen (exec (.setEq 4#8) idle) =
      some ([0xAA#8, 0x1A#8, 0x01#8, 0x04#8, 0xC9#8], 0#16, .none) := by decide

theorem test_setDevice :
    seen (exec (.setDevice 0xFF#8) idle) =
      some ([0xAA#8, 0x0B#8, 0x01#8, 0xFF#8, 0xB5#8], 0#16, .none) := by decide

theorem test_interludeByNumber :
    seen (exec (.interludeByNumber 0x01#8 0x0102#16) idle) =
      some ([0xAA#8, 0x0B#8, 0x03#8, 0x01#8, 0x01#8, 0x02#8, 0xBC#8], 0#16, .none) := by decide

theorem test_setCycleTimesW1 :
    seen (exec (.setCycleTimesW1 255#16) idle) =
      some ([0xAA#8, 0x19#8, 0x01#8, 0xFF#8, 0xC3#8], 0#16, .none) := by decide

theorem test_setCycleTimesW2 :
    seen (exec (.setCycleTimesW2 0x0102#16) idle2) =
      some ([0xAA#8, 0x19#8, 0x02#8, 0x01#8, 0x02#8, 0xC8#8], 0#16, .none) := by decide

theorem test_playByPath :
    seen (exec (.playByPath 0x02#8 (ascii "/a")) idle2) =
      some ([0xAA#8, 0x08#8, 0x03#8, 0x02#8, 0x2F#8, 0x41#8, 0x27#8], 0#16, .none) := by decide

theorem test_interludeByPath :
    seen (exec (.interludeByPath 0x01#8 (ascii "/SONGS1/FILE1.MP3")) idle) =
      some ([0xAA#8, 0x17#8, 0x13#8, 0x01#8, 0x2F#8, 0x53#8, 0x4F#8, 0x4E#8, 0x47#8, 0x53#8, 0x31#8, 0x2A#8,
        0x2F#8, 0x46#8, 0x49#8, 0x4C#8, 0x45#8, 0x31#8, 0x2A#8, 0x4D#8, 0x50#8, 0x33#8, 0x63#8], 0#16, .none) := by decide

theorem test_combinationPlay :
    seen (exec (.combinationPlay [token 'A' 'B', token 'c' 'd']) idle2) =
      some ([0xAA#8, 0x1B#8, 0x04#8, 0x41#8, 0x42#8, 0x63#8, 0x64#8, 0x13#8], 0#16, .none) := by decide

theorem test_setCycleTimes_by_configuration :
    reason (exec (.setCycleTimesW1 256#16) idle) = some .cycleTimesTooWide ∧
    reason (exec (.setCycleTimesW2 256#16) idle) = some .cycleTimesTooWide ∧
    seen (exec (.setCycleTimesW1 3#16) idle2) =
      some ([0xAA#8, 0x19#8, 0x02#8, 0x00#8, 0x03#8, 0xC8#8], 0#16, .none) := by decide

theorem test_playByPath_corners :
    seen (exec (.playByPath 0x00#8 []) idle) = some ([], 0#16, .none) ∧
    reason (exec (.playByPath 0x01#8 (ascii "a/b")) idle) = some .pathNotAbsolute ∧
    reason (exec (.playByPath 0x01#8 (longPath 254 0x61#8)) idle) = some .payloadTooLong ∧
    reason (exec (.playByPath 0x01#8 (longPath 127 slash)) idle) =
      some .payloadTooLong := by decide +kernel

theorem test_interludeByPath_longest :
    (seen (exec (.interludeByPath 0x01#8 (longPath 253 0x61#8)) idle)).map (fun r => (r.1.take 5, r.1.length)) =
      some ([0xAA#8, 0x17#8, 0xFF#8, 0x01#8, 0x2F#8], 259) := by decide +kernel

theorem test_combinationPlay_corners :
    seen (exec (.combinationPlay []) idle) = some ([], 0#16, .none) ∧
    (seen (exec (.combinationPlay (List.replicate 127 (token '9' '9'))) idle)).map
      (fun r => (r.1.take 3, r.1.getLast?)) = some ([0xAA#8, 0x1B#8, 0xFE#8], some 0x51#8) ∧
    reason (exec (.combinationPlay (List.replicate 128 (token '9' '9'))) idle) = some .tooManyTokens := by
  decide +kernel

theorem test_queryPlayState :
    seen (exec .queryPlayState (answering [0xAA#8, 0x01#8, 0x01#8, 0x07#8, 0xB3#8])) =
      some ([0xAA#8, 0x01#8, 0x00#8, 0xAB#8], 0x0007#16, .none) := by decide

theorem test_queryPlayState_short :
    seen (exec .queryPlayState (answering [0xAA#8, 0x01#8, 0x01#8, 0x01#8])) =
      some ([0xAA#8, 0x01#8, 0x00#8, 0xAB#8], 0x00E0#16, .comm) := by decide

theorem test_queryPlayingDevice :
    seen (exec .queryPlayingDevice (answering [0xAA#8, 0x0A#8, 0x01#8, 0xFF#8, 0xB4#8])) =
      some ([0xAA#8, 0x0A#8, 0x00#8, 0xB4#8], 0x00FF#16, .none) := by decide

theorem test_queryPlayingDevice_checksum :
    seen (exec .queryPlayingDevice (answering [0xAA#8, 0x0A#8, 0x01#8, 0x01#8, 0xB7#8])) =
      some ([0xAA#8, 0x0A#8, 0x00#8, 0xB4#8], 0x00E1#16, .csum) := by decide

theorem test_querySoundCount :
    seen (exec .querySoundCount (answering [0xAA#8, 0x0C#8, 0x02#8, 0x12#8, 0x34#8, 0xFE#8])) =
      some ([0xAA#8, 0x0C#8, 0x00#8, 0xB6#8], 0x1234#16, .none) := by decide

theorem test_querySoundCount_short :
    seen (exec .querySoundCount (answering [0x01#8, 0x02#8, 0x03#8, 0x04#8, 0x05#8])) =
      some ([0xAA#8, 0x0C#8, 0x00#8, 0xB6#8], 0x0000#16, .comm) := by decide

theorem test_queryPlayingSound :
    seen (exec .queryPlayingSound (answering [0xAA#8, 0x0D#8, 0x02#8, 0x00#8, 0x01#8, 0xBA#8])) =
      some ([0xAA#8, 0x0D#8, 0x00#8, 0xB7#8], 0x0001#16, .none) := by decide

theorem test_queryDirFirst :
    seen (exec .queryDirFirst (answering [0xAA#8, 0x11#8, 0x02#8, 0x00#8, 0x10#8, 0xCD#8])) =
      some ([0xAA#8, 0x11#8, 0x00#8, 0xBB#8], 0x0010#16, .none) := by decide

theorem test_queryDirFirst_checksum :
    seen (exec .queryDirFirst (answering [0xAA#8, 0x11#8, 0x02#8, 0x00#8, 0x10#8, 0xCE#8])) =
      some ([0xAA#8, 0x11#8, 0x00#8, 0xBB#8], 0x0000#16, .csum) := by decide

theorem test_queryDirCount :
    seen (exec .queryDirCount (answering [0xAA#8, 0x12#8, 0x02#8, 0xFF#8, 0xFF#8, 0xBC#8])) =
      some ([0xAA#8, 0x12#8, 0x00#8, 0xBC#8], 0xFFFF#16, .none) := by decide

theorem test_queryDirCount_short :
    seen (exec .queryDirCount (answering [0xAA#8, 0x12#8])) =
      some ([0xAA#8, 0x12#8, 0x00#8, 0xBC#8], 0x0000#16, .comm) := by decide

/-- 45_query_commands.md R149: at RLEN8 = 6 the six-byte response is read and the five-byte one is short. -/
theorem test_queryPlayState_at_length_6 :
    seen (exec .queryPlayState { answering [0xAA#8, 0x01#8, 0x01#8, 0x01#8, 0x00#8, 0xAD#8] with
      par := { rlen8 := 6, psFail := 0xE0#8, devFail := 0xE1#8 } }) =
        some ([0xAA#8, 0x01#8, 0x00#8, 0xAB#8], 0x0001#16, .none) ∧
    seen (exec .queryPlayState { answering [0xAA#8, 0x01#8, 0x01#8, 0x01#8, 0xAD#8] with
      par := { rlen8 := 6, psFail := 0xE0#8, devFail := 0xE1#8 } }) =
        some ([0xAA#8, 0x01#8, 0x00#8, 0xAB#8], 0x00E0#16, .comm) := by decide

/-! ### Steps, reset, sequencer (2.7, R72, R187, R189, R195) -/

/-- The idle block whose host issues a command. -/
def issuing (i : Instr) : State := { idle with host := [.issue (encodePort i)] }

theorem test_step_issues :
    seen (step (issuing (.select 0xFFFF#16))) =
      some ([0xAA#8, 0x1F#8, 0x02#8, 0xFF#8, 0xFF#8, 0xC9#8], 0#16, .none) ∧
    seen (step (issuing (.playByPath 0x00#8 (ascii "//")))) =
      some ([0xAA#8, 0x08#8, 0x04#8, 0x00#8, 0x2F#8, 0x2A#8, 0x2F#8, 0x3E#8], 0#16, .none) := by decide

theorem test_step_stops :
    reason (step { idle with host := [.issue noCommand] }) = some .reservedOpsel ∧
    reason (step { idle with busy := true, host := [.reset idle.cfg] }) = some .resetWhileBusy ∧
    stopped (step { idle with busy := true, host := [.issue noCommand] }) = some .stuckBusy ∧
    stopped (step { idle with host := [.issue { encodePort (.playByPath 0x00#8 (ascii "/a")) with
      stream := [0x2F#8] }] }) = some .streamStarved := by decide

theorem test_reset_clears :
    seen (step { idle with host := [.reset idle.cfg], err := .csum, result := 0x00E1#16, tx := [0xAA#8] }) =
      some ([], 0x0000#16, .none) := by decide

/-- 70 R192 (d): of PLAY's frame the transport accepts two bytes; the block waits in WRITE, and so does the
sequencer, whose next tick has no next state. -/
theorem test_stalled_write :
    (match exec .play { idle with txRoom := some 2 } with
      | .next t => some (t.tx, t.busy, t.phase, t.idx, t.acc)
      | _ => none) = some ([0xAA#8, 0x02#8], true, .write, 2#9, 0xAC#8) ∧
    (match acceptPort (encodePort .play) { idle with txRoom := some 2 } with
      | .next a => some (goesOn (ticks 2 a), stopped (ticks 3 a))
      | _ => none) = some (true, some .writeNeverReturns) := by decide

/-- 70 R192 (d), 10_state.md R24: a token whose bytes were not accepted is still in S. -/
theorem test_stalled_stream :
    (match exec (.combinationPlay [token '0' '1', token '0' '2']) { idle with txRoom := some 5 } with
      | .next t => some (t.tx, t.stream)
      | _ => none) = some ([0xAA#8, 0x1B#8, 0x04#8, 0x30#8, 0x31#8], [0x30#8, 0x32#8]) := by decide

/-- R6, R30: RLEN8 is any natural; a longer response is decoded all the same, and RXBUF holds six bytes. -/
theorem test_rlen8_seven :
    (match exec .queryPlayState { answering [0xAA#8, 0x01#8, 0x01#8, 0x05#8, 0x00#8, 0x00#8, 0xB1#8] with
        par := { rlen8 := 7, psFail := 0xE0#8, devFail := 0xE1#8 } } with
      | .next t => some (t.result, t.err, t.rxbuf.length, t.rxcnt)
      | _ => none) = some (0x0005#16, .none, 6, 7#3) := by decide

/-- R137, 2.5: after the prefix and one token the running checksum is 0x2A, and 8 ticks send the frame. -/
theorem test_sequencer_streams :
    (match acceptPort (encodePort (.combinationPlay [token '0' '1', token '0' '2'])) idle with
      | .next a => (match ticks 5 a with | .next t => some t.acc | _ => none)
      | _ => none) = some 0x2A#8 ∧
    (match acceptPort (encodePort (.combinationPlay [token '0' '1', token '0' '2'])) idle with
      | .next a => seen (ticks 8 a)
      | _ => none) =
        some ([0xAA#8, 0x1B#8, 0x04#8, 0x30#8, 0x31#8, 0x30#8, 0x32#8, 0x8C#8], 0#16, .none) := by decide

/-! ### Witnesses: concrete data that meet the hypotheses of each obligation, clause by clause -/

/-- A valid five-byte response, its checksum off by one, and one byte short (2.6). -/
def good5 : List Byte := [0xAA#8, 0x01#8, 0x01#8, 0x01#8, 0xAD#8]
def bad5 : List Byte := [0xAA#8, 0x01#8, 0x01#8, 0x01#8, 0xAE#8]
def short5 : List Byte := [0xAA#8, 0x01#8, 0x01#8, 0x01#8]

/-- A valid six-byte response, its checksum off by one, and one byte short (2.6). -/
def good6 : List Byte := [0xAA#8, 0x0C#8, 0x02#8, 0x00#8, 0x05#8, 0xBD#8]
def bad6 : List Byte := [0xAA#8, 0x0C#8, 0x02#8, 0x00#8, 0x05#8, 0xBC#8]
def short6 : List Byte := [0xAA#8, 0x0C#8, 0x02#8, 0x00#8, 0x05#8]

/-- The idle block whose next read never returns. -/
def silent : State := { idle with answers := [.never] }

/-- The idle block before a transport that accepts so many bytes more and then none. -/
def room (n : Nat) : State := { idle with txRoom := some n }

/-- The block at another RLEN8 whose next read is answered with these bytes. -/
def reading (n : Nat) (bs : List Byte) : State :=
  { answering bs with par := { rlen8 := n, psFail := 0xE0#8, devFail := 0xE1#8 } }

theorem witness_SplitWritesAreOneWrite : writeReturns [0xAA#8, 0x02#8].length (room 2) = true := by decide

theorem witness_ChecksumLaws :
    [0x01#8, 0x02#8, 0x03#8].Perm [0x03#8, 0x02#8, 0x01#8] ∧ (0xFF#8 : Byte) ≠ 0#8 := by decide

theorem witness_FrameIsPrefixPayloadChecksum :
    (List.replicate 255 (0x00#8 : Byte)).length ≤ 255 ∧ 255 < (List.replicate 256 (0x00#8 : Byte)).length := by
  decide +kernel

theorem witness_ValidationDetectsEverySingleBitFlip :
    (0 < 8 ∧ validate ([] ++ 0xAA#8 :: [0x0C#8, 0x02#8, 0x00#8, 0x05#8, 0xBD#8]) = true) ∧
    (7 < 8 ∧ validate ([0xAA#8, 0x0C#8, 0x02#8, 0x00#8, 0x05#8] ++ 0xBD#8 :: []) = true) := by decide

theorem witness_ResetInputWhileIdle :
    ({ idle with host := [.reset idle2.cfg] } : State).host = .reset idle2.cfg :: [] ∧ idle.busy = false :=
  ⟨rfl, rfl⟩

theorem witness_ResetWhileBusyIsRefused :
    ({ idle with busy := true, host := [.reset idle2.cfg] } : State).host = .reset idle2.cfg :: [] ∧
    ({ idle with busy := true, host := [.reset idle2.cfg] } : State).busy = true := ⟨rfl, rfl⟩

theorem witness_ZeroPayloadCommandsSendTheirFrames :
    ((Instr.play, [0xAA#8, 0x02#8, 0x00#8, 0xAC#8]) : Instr × List Byte) ∈
    [ (Instr.play, [0xAA#8, 0x02#8, 0x00#8, 0xAC#8]),
      (Instr.pause, [0xAA#8, 0x03#8, 0x00#8, 0xAD#8]),
      (Instr.stop, [0xAA#8, 0x04#8, 0x00#8, 0xAE#8]),
      (Instr.previous, [0xAA#8, 0x05#8, 0x00#8, 0xAF#8]),
      (Instr.next, [0xAA#8, 0x06#8, 0x00#8, 0xB0#8]),
      (Instr.previousDirLast, [0xAA#8, 0x0E#8, 0x00#8, 0xB8#8]),
      (Instr.previousDirFirst, [0xAA#8, 0x0F#8, 0x00#8, 0xB9#8]),
      (Instr.stopInterlude, [0xAA#8, 0x10#8, 0x00#8, 0xBA#8]),
      (Instr.volumeUp, [0xAA#8, 0x14#8, 0x00#8, 0xBE#8]),
      (Instr.volumeDown, [0xAA#8, 0x15#8, 0x00#8, 0xBF#8]),
      (Instr.endCombinationPlay, [0xAA#8, 0x1C#8, 0x00#8, 0xC6#8]) ] ∧
    writeReturns 4 (room 4) = true := by decide

theorem witness_NumberCommandsSendBigEndian :
    writeReturns 6 (room 6) = true ∧ writeReturns 7 (room 7) = true := by decide

theorem witness_ByteCommandsSendAnyByte :
    ((Instr.setDevice 0xFF#8, 0x0B#8) : Instr × Byte) ∈
    [ (Instr.setVolume 0xFF#8, 0x13#8), (Instr.setCycleMode 0xFF#8, 0x18#8),
      (Instr.setEq 0xFF#8, 0x1A#8), (Instr.setDevice 0xFF#8, 0x0B#8) ] ∧
    writeReturns 5 (room 5) = true := by decide

theorem witness_SetCycleTimesFollowsTheConfiguredWidth :
    Instr.setCycleTimesW2 255#16 ∈ [Instr.setCycleTimesW1 255#16, Instr.setCycleTimesW2 255#16] ∧
    (idle.cfg.cycleW = .one ∧ (255#16 : Half).toNat ≤ 255 ∧ writeReturns 5 idle = true) ∧
    (idle.cfg.cycleW = .one ∧ 255 < (256#16 : Half).toNat) ∧ idle2.cfg.cycleW = .two ∧
    writeReturns 6 idle2 = true := by decide

theorem witness_PathCommandsSendDeviceAndEncodedPath :
    (encodePath (slash :: List.replicate 253 0x61#8) idle.cfg.pathUpper).length = 254 ∧
    writeReturns (5 + 254) idle = true ∧ writeReturns 6 (room 6) = true ∧
    (encodePath (slash :: []) idle2.cfg.pathUpper).length ≤ 254 := by decide +kernel

theorem witness_InterludeFrameDiffersByOpcode :
    (encodePath (slash :: ascii "a") idle.cfg.pathUpper).length ≤ 254 ∧
    writeReturns (5 + (encodePath (slash :: ascii "a") idle.cfg.pathUpper).length) idle = true := by decide

theorem witness_EmptyPathIsASilentNoOp :
    Instr.interludeByPath 0xFF#8 [] ∈ [Instr.playByPath 0xFF#8 [], Instr.interludeByPath 0xFF#8 []] := by decide

theorem witness_PathRefusals :
    Instr.playByPath 0x01#8 (0x61#8 :: []) ∈
      [Instr.playByPath 0x01#8 (0x61#8 :: []), Instr.interludeByPath 0x01#8 (0x61#8 :: [])] ∧
    (0x61#8 : Byte) ≠ slash ∧
    (encodePath (slash :: List.replicate 254 0x61#8) idle.cfg.pathUpper).length = 255 ∧
    (List.replicate 127 slash).length ≤ 127 ∧ (List.replicate 255 slash).length =
      255 := by decide +kernel

theorem witness_EncodedPathLength : 1 ≤ [slash].length := by decide

theorem witness_FoldingIsIndependentOfEscaping :
    (0x61 ≤ (0x61#8 : Byte).toNat ∧ (0x61#8 : Byte).toNat ≤ 0x7A) ∧
    (0x61 ≤ (0x7A#8 : Byte).toNat ∧ (0x7A#8 : Byte).toNat ≤ 0x7A) ∧
    (0x60#8 : Byte).toNat < 0x61 ∧ 0x7A < (0x7B#8 : Byte).toNat := by decide

theorem witness_EncodedPathIsEscaped :
    encodePath (ascii "//") false = [slash] ++ star :: slash :: [] := by decide

theorem witness_CombinationPlayStreamsItsFrame :
    (1 ≤ [token '0' '1'].length ∧ [token '0' '1'].length ≤ 127 ∧ writeReturns (2 * 1 + 4) (room 6) = true) ∧
    writeReturns (2 * 127 + 4) idle = true ∧
    (1 ≤ (List.replicate 127 (token '9' '9')).length ∧ (List.replicate 127 (token '9' '9')).length ≤ 127) := by
  decide +kernel

theorem witness_TooManyTokensAreRefused : 128 ≤ (List.replicate 128 (token '9' '9')).length := by decide +kernel

theorem witness_EightBitQueriesReadAndDecode :
    writeReturns 4 idle = true ∧ 4 ≤ idle.par.rlen8 ∧
    (nextAnswer 5 (answering short5) = .bytes short5 ∧ short5.length < idle.par.rlen8) ∧
    (nextAnswer 5 (answering bad5) = .bytes bad5 ∧ idle.par.rlen8 ≤ bad5.length ∧
      validate (bad5.take 5) = false) ∧
    (nextAnswer 5 (answering good5) = .bytes good5 ∧ idle.par.rlen8 ≤ good5.length ∧
      validate (good5.take 5) = true) := by decide

/-- RLEN8 at 3, 1 and 0, with a valid answer where there is one. -/
theorem witness_EightBitQueriesWithoutADataByte :
    (nextAnswer 3 (reading 3 [0x01#8, 0x02#8, 0x03#8]) = .bytes [0x01#8, 0x02#8, 0x03#8] ∧
      validate [0x01#8, 0x02#8, 0x03#8] = true ∧ writeReturns 4 (reading 3 [0x01#8, 0x02#8, 0x03#8]) = true) ∧
    (nextAnswer 1 (reading 1 [0x00#8]) = .bytes [0x00#8] ∧ validate [0x00#8] = true) ∧
    nextAnswer 0 (reading 0 []) = .bytes [] := by decide

theorem witness_SixteenBitQueriesReadAndDecode :
    writeReturns 4 idle = true ∧ (nextAnswer 6 (answering short6) = .bytes short6 ∧ short6.length < 6) ∧
    (nextAnswer 6 (answering bad6) = .bytes bad6 ∧ 6 ≤ bad6.length ∧ validate (bad6.take 6) = false) ∧
    (nextAnswer 6 (answering good6) = .bytes good6 ∧ 6 ≤ good6.length ∧ validate (good6.take 6) = true) := by
  decide

theorem witness_ResponseHeaderIsNotChecked : idle.par.rlen8 = 5 ∧ writeReturns 4 idle = true := by decide

theorem witness_WellFormedResponseYieldsItsValue :
    idle.par.rlen8 = 5 ∧ writeReturns 4 idle = true ∧
    nextAnswer 6 (answering (wellFormedResp16 0x0C#8 5#16)) = .bytes (wellFormedResp16 0x0C#8 5#16) ∧
    wellFormedResp16 0x0C#8 5#16 = good6 ∧ wellFormedResp8 0x01#8 0x01#8 = good5 ∧
    nextAnswer 5 (answering (wellFormedResp8 0x01#8 0x01#8)) = .bytes (wellFormedResp8 0x01#8 0x01#8) := by
  decide

theorem witness_ResponseBufferHoldsTheBytesObtained :
    ∃ t, Instr.querySoundCount.isQuery = true ∧ exec .querySoundCount (answering good6) = .next t ∧
      t.rx = (answering good6).rx ++ [{ want := 6, got := good6 }] ∧ t.err = .none :=
  ⟨_, rfl, rfl, rfl, rfl⟩

theorem witness_ResponseBufferHoldsTheBytesObtained_resp8 :
    ∃ t, Instr.queryPlayState.isQuery = true ∧ exec .queryPlayState (answering good5) = .next t ∧
      t.rx = (answering good5).rx ++ [{ want := 5, got := good5 }] ∧ t.err = .none ∧
      Instr.queryPlayState.queryClass = .resp8 ∧ 4 ≤ (answering good5).par.rlen8 :=
  ⟨_, rfl, rfl, rfl, rfl, rfl, by decide⟩

theorem witness_ErrorsCollapseInResult :
    Instr.querySoundCount.isQuery = true ∧ writeReturns 4 idle = true ∧
    short6.length < Instr.querySoundCount.queryClass.readLength idle.par ∧
    bad6.length =
      Instr.querySoundCount.queryClass.readLength idle.par ∧ validate bad6 = false := by decide

theorem witness_UnansweredReadLeavesTheBlockBusy :
    Instr.queryPlayState.isQuery = true ∧ writeReturns 4 silent = true ∧
    nextAnswer (Instr.queryPlayState.queryClass.readLength silent.par) silent = .never := by decide

/-- Nothing accepted, and all but the checksum byte. -/
theorem witness_StalledWriteLeavesTheBlockBusy :
    Instr.play.isNoOp = false ∧ admission (room 0).cfg .play = none ∧
    encode (room 0).cfg.pathUpper (Instr.play.rowAt (room 0).cfg.cycleW) = some [0xAA#8, 0x02#8, 0x00#8] ∧
    (room 0).txRoom = some 0 ∧ 0 < 3 + 1 ∧ (room 3).txRoom = some 3 ∧ 3 < 3 + 1 := by decide

theorem witness_CommandsRunExactlyInTheirDomain :
    admission idle.cfg .play = none ∧
    admission idle.cfg (.setCycleTimesW1 256#16) = some .cycleTimesTooWide ∧
    admission idle.cfg (.playByPath 0x00#8 [0x61#8]) = some .pathNotAbsolute := by decide

theorem witness_CommandsEndWhenTheReadReturns :
    ∃ t, exec .querySoundCount (answering short6) = .next t ∧ Instr.querySoundCount.isQuery = true ∧
      encode false .querySoundCount = some [0xAA#8, 0x0C#8, 0x00#8] ∧ writeReturns 4 (answering short6) = true ∧
      nextAnswer 6 (answering short6) ≠ .never := ⟨_, rfl, rfl, rfl, rfl, by decide⟩

/-- The next state that CommandsKeepTheirOperands, CommandsSendTheWordsOfTheirRow,
CommandsUseTheTransportsRoom, OnlyQueriesReadAndOnlyOnce, OnlyQueriesRaiseErrors and TransientsAfterAFireAndForgetCommand ask for. -/
theorem witness_commands_that_read_nothing :
    ∃ t, exec (.setVolume 30#8) idle = .next t ∧ (Instr.setVolume 30#8).isQuery = false ∧
      ([0xAA#8, 0x13#8, 0x01#8, 0x1E#8, 0xDC#8] : List Byte) ≠ [] ∧
      t.tx = idle.tx ++ [0xAA#8, 0x13#8, 0x01#8, 0x1E#8, 0xDC#8] ∧ t.busy = false ∧
      writeReturns (4 + 1) idle = true :=
  ⟨_, rfl, rfl, by decide, rfl, rfl, rfl⟩

/-- The same for the clauses about a write that waits for ever. -/
theorem witness_commands_that_wait :
    ∃ t, exec (.setVolume 30#8) (room 2) = .next t ∧ (Instr.setVolume 30#8).isQuery = false ∧ t.busy = true :=
  ⟨_, rfl, rfl, rfl⟩

theorem witness_CommandsDependOnNoEarlierCommand :
    ∃ t u, (answering good6).cfg = { answering good6 with err := .csum, tx := [0xAA#8] }.cfg ∧
      (answering good6).par = { answering good6 with err := .csum, tx := [0xAA#8] }.par ∧
      (answering good6).txRoom = { answering good6 with err := .csum, tx := [0xAA#8] }.txRoom ∧
      exec .querySoundCount (answering good6) = .next t ∧
      exec .querySoundCount { answering good6 with err := .csum, tx := [0xAA#8] } = .next u ∧
      nextAnswer 6 (answering good6) = .bytes good6 ∧
      nextAnswer 6 { answering good6 with err := .csum, tx := [0xAA#8] } = .bytes good6 ∧ t.busy = false :=
  ⟨_, _, rfl, rfl, rfl, rfl, rfl, rfl, rfl, rfl⟩

theorem witness_PortDecodingInvertsPortEncoding :
    ((Instr.setCycleTimesW2 256#16).wellFormed = true ∧
      (Instr.setCycleTimesW2 256#16).rowAt .two = .setCycleTimesW2 256#16) ∧
    ((Instr.playByPath 0x01#8 (ascii "/x.y")).wellFormed = true ∧
      (Instr.playByPath 0x01#8 (ascii "/x.y")).rowAt .one = .playByPath 0x01#8 (ascii "/x.y")) := by decide

theorem witness_WireDecodingInvertsWireEncoding :
    encode false (.playByPath 0x01#8 (ascii "/x.y")) =
      some [0xAA#8, 0x08#8, 0x05#8, 0x01#8, 0x2F#8, 0x78#8, 0x2A#8, 0x79#8] ∧
    ∀ c ∈ (ascii "/x.y").tail, c ≠ star ∧ fold c false = c := by decide

theorem witness_PathFramesDecodeToTheirFrame :
    encode true (.interludeByPath 0x02#8 (ascii "/a")) =
      some [0xAA#8, 0x17#8, 0x03#8, 0x02#8, 0x2F#8, 0x41#8] := by decide

theorem witness_FrameDecodingTestsTheChecksum :
    decode [0xAA#8, 0x07#8, 0x02#8, 0x01#8, 0x02#8] = .ok (.playByNumber 0x0102#16, []) := by decide

theorem witness_WordsBelongToTheRowOfTheirMnemonic :
    encode false (.setCycleTimesW1 255#16) = some [0xAA#8, 0x19#8, 0x01#8, 0xFF#8] := by decide

theorem witness_ReservedEncodingsAreRefused :
    ((0x00#8 : Byte).toNat ≤ ([] : List Byte).length ∧ (0x09#8 : Byte).toNat = 0x09 ∧
      0x20 ≤ (0x20#8 : Byte).toNat ∧ 0x20 ≤ (0xFF#8 : Byte).toNat) ∧
    idle.busy = false ∧ 28 ≤ ({ noCommand with opsel := 28#5 } : PortCmd).opsel.toNat ∧
    28 ≤ noCommand.opsel.toNat := by decide

theorem witness_StepRunsTheDecodedCommand :
    (issuing .play).busy = false ∧ (issuing .play).host = .issue (encodePort .play) :: [] ∧
    decodePort (issuing .play).cfg.cycleW (encodePort .play) = .ok .play := by decide

theorem witness_IdleBlockDoesNothing : idle.host = [] ∧ idle.busy = false := by decide

/-- The first clause asks for BUSY = 1, the second for BUSY = 0 and a stream one byte short. -/
theorem witness_PortStops :
    ({ issuing .play with busy := true } : State).busy = true ∧
    (encodePort (.playByPath 0x00#8 (ascii "/a"))).opsel.toNat ∈ [7, 21, 25] ∧
    ({ encodePort (.playByPath 0x00#8 (ascii "/a")) with stream := [slash] } : PortCmd).stream.length <
      streamLength { encodePort (.playByPath 0x00#8 (ascii "/a")) with stream := [slash] } := by decide

theorem witness_OnlyResetChangesTheConfiguration :
    ∃ t, step { idle with host := [.reset idle2.cfg] } = .next t ∧ t.cfg = idle2.cfg := ⟨_, rfl, rfl⟩

/-- An idle block with nothing sent meets the invariant, and a command of its host is a step. -/
theorem witness_StepKeepsTheInvariant : (issuing .play).Inv ∧ ∃ t, step (issuing .play) = .next t :=
  ⟨{ settled := .inl ⟨rfl, rfl⟩
     pbufWf := List.Pairwise.nil
     pbufBound := fun _ h => nomatch h
     rxbufWf := List.Pairwise.nil
     rxbufBound := fun _ h => nomatch h
     idxBound := by decide
     rxcntBound := fun _ => by decide
     rxBound := fun _ h => nomatch h
     wire := ⟨[], [], rfl, fun _ h => (nomatch h), rfl⟩ }, _, rfl⟩

theorem witness_SequencerRealisesTheTransaction :
    idle.busy = false ∧ (∃ t, runPort (encodePort .play) idle = .next t) ∧
    runPort noCommand idle = .refused .reservedOpsel ∧
    runPort { encodePort (.playByPath 0x00#8 (ascii "/a")) with stream := [slash] } idle =
      .fault .streamStarved := ⟨rfl, ⟨_, rfl⟩, rfl, rfl⟩

/-- The block about to hand over the byte at an offset of SET_VOLUME 30's frame. -/
def writing (k : BitVec 9) : State :=
  { idle with busy := true, phase := .write, opsel := 18#5, aVal := 30#8, idx := k, acc := 0xDC#8 }

theorem witness_WriteTickSendsTheByteAtIdx :
    (∀ k ∈ [0#9, 1#9, 2#9, 3#9, 4#9], goesOn (tick (writing k)) = true ∧
      (writing k).idx.toNat ≤ 3 + payloadLength .val (writing k)) ∧
    (writing 0#9).phase = .write ∧ portRow (writing 0#9).opsel.toNat = some ⟨0x13#8, .val, none⟩ ∧
    payloadLength .val (writing 0#9) ≤ 255 ∧ payloadByte .val (3 - 3) (writing 3#9) = .ok 30#8 := by decide

/-- A read that is answered: valid, corrupted, short, and with RLEN8 = 0; then the tick before a read. -/
theorem witness_ReadFollowsTheWholeFrame :
    (∀ bs ∈ [good6, bad6, short6], ∃ t,
      tick { answering bs with busy := true, phase := .read, opsel := 11#5 } = .next t ∧ t.rx ≠ []) ∧
    (∃ t, tick { reading 0 [] with busy := true, phase := .read, opsel := 0#5 } = .next t ∧ t.rx ≠ []) ∧
    ∃ t, tick { idle with busy := true, phase := .write, opsel := 11#5, idx := 3#9 } = .next t ∧
      t.phase = .read := by
  refine ⟨fun bs h => ?_, ⟨_, rfl, ?_⟩, _, rfl, rfl⟩
  · simp only [List.mem_cons, List.not_mem_nil, or_false] at h
    rcases h with rfl | rfl | rfl <;> exact ⟨_, rfl, by decide⟩
  · rw [readPhase_bytes (bs := []) rfl]
    obtain ⟨r, e, h⟩ := judgeResponse_eq ..
    rw [h]
    exact List.cons_ne_nil (α := RxRecord) { want := 0, got := [] } []

end Sys2Proof.Tests
end

-- ==== Proofs of the family 10_state.md ====
section
/-! PROOF. 10_state.md R20: two runs of one command from states that differ in what earlier commands left. -/

namespace Sys2Proof.Machine

/-- Two runs, from `s` to `t` and from `s'` to `t'`, that an observer of the link, RESULT and ERR does not tell
apart (10_state.md R20): the same bytes are sent, and before the same answer to a read of class `cls` both end or
neither does, with the same RESULT and ERR where the response fixes its value (log 6). -/
structure Agree (cls : RespClass) (s s' t t' : State) : Prop where
  sent  : ∃ f, t.tx = s.tx ++ f ∧ t'.tx = s'.tx ++ f
  ended : ∀ bs, nextAnswer (cls.readLength s.par) s = .bytes bs →
    nextAnswer (cls.readLength s.par) s' = .bytes bs →
    t.busy = t'.busy ∧
    (t.busy = false → (cls = .resp8 → 4 ≤ s.par.rlen8) → t.result = t'.result ∧ t.err = t'.err)

/-! ### The read phase -/

/-- A response with a byte at offset 3 leaves the free value of log 6 no part in RESULT (45 R147, R148). -/
theorem RespClass.value_congr {cls : RespClass} {bs : List Byte} (h : cls = .resp8 → 4 ≤ bs.length)
    (free free' : Byte) : cls.value free bs = cls.value free' bs := by
  cases cls with
  | resp16 => rfl
  | resp8 =>
    have h3 : 3 < bs.length := h rfl
    simp only [RespClass.value, decode8, List.getD_eq_getElem _ _ h3]

theorem judgeResponse_busy (cls : RespClass) (n : Nat) (v : Half) (bs : List Byte) (s : State) :
    (judgeResponse cls n v bs s).busy = false := by
  obtain ⟨r, e, h⟩ := judgeResponse_eq cls n v bs s
  rw [h]

/-- The judgement of a response rests on its bytes alone: too short, valid or corrupted, whatever the state. -/
theorem judgeResponse_congr {cls : RespClass} {n : Nat} (hn : 0 < n) (h8 : cls = .resp8 → 4 ≤ n) (v : Half)
    (bs : List Byte) (s s' : State) :
    (judgeResponse cls n v bs s).result = (judgeResponse cls n v bs s').result ∧
    (judgeResponse cls n v bs s).err = (judgeResponse cls n v bs s').err := by
  by_cases hl : bs.length < n
  · simp only [judgeResponse, if_pos hl, takeError_result, takeError_err, and_self]
  · have hpos : 0 < bs.length := by omega
    have hval := RespClass.value_congr (cls := cls) (bs := bs) fun hc => (h8 hc).trans (Nat.le_of_not_lt hl)
    simp only [judgeResponse, if_neg hl, responseValid_of_pos hpos]
    cases validate bs with
    | true => exact ⟨hval _ _, rfl⟩
    | false => exact ⟨rfl, rfl⟩

/-- The read phase sends nothing (45 R151). -/
theorem readPhase_tx (cls : RespClass) (v : Half) (s : State) : (readPhase cls v s).tx = s.tx := by
  cases h : nextAnswer (cls.readLength s.par) s with
  | never => rw [readPhase_never h]
  | bytes bs =>
    rw [readPhase_bytes h]
    obtain ⟨r, e, hj⟩ := judgeResponse_eq cls (cls.readLength s.par) v (bs.take (cls.readLength s.par))
      (rxAnswered (cls.readLength s.par) bs { s with phase := .read })
    rw [hj, rxAnswered_tx]

theorem readPhase_agree (cls : RespClass) (v : Half) {s s' : State} (hpar : s.par = s'.par) :
    Agree cls s s' (readPhase cls v s) (readPhase cls v s') := by
  refine ⟨⟨[], by simp [readPhase_tx], by simp [readPhase_tx]⟩, fun bs h h' => ?_⟩
  rw [readPhase_bytes h, readPhase_bytes (hpar ▸ h'), ← hpar]
  refine ⟨by simp only [judgeResponse_busy], fun _ h8 => ?_⟩
  obtain ⟨hpos, hlong⟩ : 0 < cls.readLength s.par ∧ (cls = .resp8 → 4 ≤ cls.readLength s.par) := by
    cases cls with
    | resp8 => exact ⟨Nat.lt_of_lt_of_le (by decide) (h8 rfl), h8⟩
    | resp16 => exact ⟨Nat.succ_pos 5, nofun⟩
  exact judgeResponse_congr hpos hlong v _ _ _

/-! ### The write phase -/

/-- A command that ends in both runs with one value agrees: no answer is awaited. -/
theorem finish_agree (cls : RespClass) (v : Half) (s s' : State) :
    Agree cls s s' (finish v s) (finish v s') :=
  ⟨⟨[], by simp, by simp⟩, fun _ _ _ => ⟨rfl, fun _ _ => ⟨rfl, rfl⟩⟩⟩

/-- Before transports that accept the same, one frame is handed over whole in both runs or breaks off at the same
byte in both; so the runs agree if what follows the frame does. -/
theorem writePhase_agree {cls : RespClass} {op : Byte} {p : List Byte} {rest : State → State} {s s' : State}
    (hroom : s.txRoom = s'.txRoom) (hb : s.busy = true) (hb' : s'.busy = true)
    (h : Agree cls (sentState op p s) (sentState op p s') (rest (sentState op p s)) (rest (sentState op p s'))) :
    Agree cls s s' (writePhase (frameOf op p) rest s) (writePhase (frameOf op p) rest s') := by
  rcases writePhase_cases op p rest s with ⟨hw, e⟩ | ⟨r, hr, hlt, e⟩
  · have hw' : writeReturns (p.length + 4) s' = true := by rwa [writeReturns, ← hroom]
    obtain ⟨⟨g, hg, hg'⟩, hend⟩ := h
    rw [e, writePhase_whole hw']
    exact ⟨⟨frameOf op p ++ g, by simpa [sentState] using hg, by simpa [sentState] using hg'⟩, hend⟩
  · rw [e, writePhase_short (hroom ▸ hr) (by rwa [frameOf_length])]
    exact ⟨⟨(frameOf op p).take r, rfl, rfl⟩, fun _ _ _ =>
      ⟨hb.trans hb'.symm, fun hf => absurd (hb.symm.trans hf) (by decide)⟩⟩

/-- Sending a frame goes on exactly inside the frame builder's domain, with the write phase (40 R82, R83). -/
theorem sendFrame_eq_next {op : Byte} {p : List Byte} {rest : State → State} {s t : State} :
    sendFrame op p rest s = .next t ↔ p.length ≤ 255 ∧ writePhase (frameOf op p) rest s = t := by
  by_cases h : p.length ≤ 255
  · simp [sendFrame_next h, h]
  · simp [sendFrame, buildFrame, Config.payloadMax, h]

/-! ### The shared operations -/

section
variable {s s' t t' : State}

theorem silentNoOp_agree (cls : RespClass) : Agree cls s s' (silentNoOp s) (silentNoOp s') := by
  obtain ⟨hsent, hend⟩ := finish_agree cls 0x0000#16 (accept s) (accept s')
  exact ⟨hsent, hend⟩

theorem fireAndForget_agree {cls : RespClass} {op : Byte} {p : List Byte} (hroom : s.txRoom = s'.txRoom)
    (h : fireAndForget op p s = .next t) (h' : fireAndForget op p s' = .next t') : Agree cls s s' t t' := by
  obtain ⟨-, rfl⟩ := sendFrame_eq_next.1 h
  obtain ⟨-, rfl⟩ := sendFrame_eq_next.1 h'
  obtain ⟨hsent, hend⟩ := writePhase_agree (s := accept s) (s' := accept s') hroom rfl rfl
    (finish_agree cls 0x0000#16 (sentState op p (accept s)) (sentState op p (accept s')))
  exact ⟨hsent, hend⟩

theorem query_agree {cls : RespClass} {op : Byte} {v : Half} (hpar : s.par = s'.par)
    (hroom : s.txRoom = s'.txRoom) (h : query op cls v s = .next t) (h' : query op cls v s' = .next t') :
    Agree cls s s' t t' := by
  obtain ⟨-, rfl⟩ := sendFrame_eq_next.1 h
  obtain ⟨-, rfl⟩ := sendFrame_eq_next.1 h'
  obtain ⟨hsent, hend⟩ := writePhase_agree (s := accept s) (s' := accept s') hroom rfl rfl
    (readPhase_agree cls v (s := sentState op [] (accept s)) (s' := sentState op [] (accept s')) hpar)
  exact ⟨hsent, hend⟩

/-- The payload width is the configuration's, which the runs share (42 R110). -/
theorem setCycleTimes_agree {cls : RespClass} {n : Half} (hcfg : s.cfg = s'.cfg) (hroom : s.txRoom = s'.txRoom)
    (h : setCycleTimes n s = .next t) (h' : setCycleTimes n s' = .next t') : Agree cls s s' t t' := by
  rw [setCycleTimes] at h h'
  rw [← hcfg] at h'
  by_cases hwide : 255 < n.toNat ∧ s.cfg.cycleW = .one
  · rw [if_pos hwide] at h
    cases h
  · rw [if_neg hwide] at h h'
    exact fireAndForget_agree hroom h h'

/-- The path's encoding is the configuration's, which the runs share (43 R121, R125). -/
theorem pathCommand_agree {cls : RespClass} {op d : Byte} {p : List Byte} (hcfg : s.cfg = s'.cfg)
    (hroom : s.txRoom = s'.txRoom) (h : pathCommand op d p s = .next t) (h' : pathCommand op d p s' = .next t') :
    Agree cls s s' t t' := by
  rw [pathCommand_eq] at h h'
  rw [← hcfg] at h'
  cases hadm : pathAdmission d p s.cfg.pathUpper with
  | some r => rw [hadm] at h; cases h
  | none =>
    rw [hadm] at h h'
    cases p with
    | nil => cases h; cases h'; exact silentNoOp_agree cls
    | cons c rest =>
      cases h; cases h'
      obtain ⟨hsent, hend⟩ := writePhase_agree (s := pathAssembled d (c :: rest) s)
        (s' := pathAssembled d (c :: rest) s') (op := op) hroom rfl rfl (finish_agree cls 0x0000#16 _ _)
      exact ⟨hsent, hend⟩

theorem execCombinationPlay_agree {cls : RespClass} {ts : List Token} (hroom : s.txRoom = s'.txRoom)
    (h : execCombinationPlay ts s = .next t) (h' : execCombinationPlay ts s' = .next t') :
    Agree cls s s' t t' := by
  cases ts with
  | nil => cases h; cases h'; exact silentNoOp_agree cls
  | cons tok rest =>
    by_cases hn : (tok :: rest).length ≤ 127
    · rw [execCombinationPlay_next (by simp) hn] at h h'
      cases h; cases h'
      obtain ⟨hsent, hend⟩ := writePhase_agree (s := { accept s with stream := _ })
        (s' := { accept s' with stream := _ }) hroom rfl rfl (finish_agree cls 0x0000#16 _ _)
      exact ⟨hsent, hend⟩
    · rw [execCombinationPlay, if_pos (show Config.tokensMax < _ from Nat.lt_of_not_le hn)] at h
      cases h

/-- Every command's two runs agree: each is one of the shared operations with an opcode, a payload and a sentinel
that come from its operands, the configuration and the parameters. -/
theorem exec_agree {i : Instr} (hcfg : s.cfg = s'.cfg) (hpar : s.par = s'.par) (hroom : s.txRoom = s'.txRoom)
    (h : exec i s = .next t) (h' : exec i s' = .next t') : Agree i.queryClass s s' t t' := by
  cases i with
  | queryPlayState =>
    rw [exec_queryPlayState] at h h'
    exact query_agree hpar hroom h (hpar ▸ h')
  | queryPlayingDevice =>
    rw [exec_queryPlayingDevice] at h h'
    exact query_agree hpar hroom h (hpar ▸ h')
  | querySoundCount | queryPlayingSound | queryDirFirst | queryDirCount => exact query_agree hpar hroom h h'
  | playByPath _ _ | interludeByPath _ _ => exact pathCommand_agree hcfg hroom h h'
  | setCycleTimesW1 _ | setCycleTimesW2 _ => exact setCycleTimes_agree hcfg hroom h h'
  | combinationPlay _ => exact execCombinationPlay_agree hroom h h'
  | play | pause | stop | previous | next | previousDirLast | previousDirFirst | stopInterlude | volumeUp
  | volumeDown | endCombinationPlay | playByNumber _ | select _ | setDevice _ | setVolume _ | setCycleMode _
  | setEq _ | interludeByNumber _ _ =>
    simp only [exec_play, exec_pause, exec_stop, exec_previous, exec_next, exec_previousDirLast,
      exec_previousDirFirst, exec_stopInterlude, exec_volumeUp, exec_volumeDown, exec_endCombinationPlay,
      exec_playByNumber, exec_select, exec_setDevice, exec_setVolume, exec_setCycleMode, exec_setEq,
      exec_interludeByNumber] at h h'
    exact fireAndForget_agree hroom h h'

end

/-- Settles O38: the two runs of the command agree. -/
theorem commandsDependOnNoEarlierCommand : Obligations.CommandsDependOnNoEarlierCommand := by
  unfold Obligations.CommandsDependOnNoEarlierCommand
  intro i s s' t t' hcfg hpar hroom h h'
  obtain ⟨hsent, hend⟩ := exec_agree hcfg hpar hroom h h'
  exact ⟨hsent, hend⟩

end Sys2Proof.Machine
end

-- ==== Proofs of the family 20_memory.md ====
section
/-! PROOF. 20_memory.md R41: what a write does to the TX history, and two writes in a row. -/

namespace Sys2Proof.Machine

/-- A write that returns appends all its bytes and changes, beside the transport's room, nothing else. -/
theorem txWrite_of_returns {bs : List Byte} {s : State} (h : writeReturns bs.length s = true) :
    txWrite bs s = { s with tx := s.tx ++ bs, txRoom := (txWrite bs s).txRoom } := by
  rw [txWrite, acceptedCount_of_returns h, List.take_length]

/-- Two writes in a row are one write of the concatenation, also where the transport stops accepting within one of
them (log 25): the accepted pieces join, and the room goes down by both lengths. -/
theorem txWrite_txWrite (a b : List Byte) (s : State) : txWrite b (txWrite a s) = txWrite (a ++ b) s := by
  have hroom : (s.txRoom.map (· - a.length)).map (· - b.length)
      = s.txRoom.map (· - (a.length + b.length)) := by
    cases s.txRoom with
    | none => rfl
    | some r => exact congrArg some (Nat.sub_sub r a.length b.length)
  simp only [txWrite, List.length_append, take_accepted_append, List.append_assoc, hroom]

/-- Settles O5: a returning write appends its bytes, and split writes are one write. -/
theorem splitWritesAreOneWrite : Obligations.SplitWritesAreOneWrite := by
  unfold Obligations.SplitWritesAreOneWrite
  exact fun a b s => ⟨txWrite_of_returns, txWrite_txWrite a b s⟩

end Sys2Proof.Machine
end

-- ==== Proofs of the family 40_checksum_and_frame.md ====
section
/-! PROOF. 40_checksum_and_frame.md: the checksum as a number (R80), and the frame builder on both sides of its bound
(R82). -/

namespace Sys2Proof.Machine

/-- The checksum as a natural: keeping the low 8 bits of the sum is taking it modulo 256 (R80). -/
theorem checksum_toNat (bs : List Byte) : (checksum bs).toNat = (bs.map BitVec.toNat).sum % 256 := by
  rw [checksum, BitVec.toNat_ofNat]

/-- Settles O1: the checksum is the sum modulo 256. -/
theorem checksumIsSumModulo256 : Obligations.ChecksumIsSumModulo256 := by
  unfold Obligations.ChecksumIsSumModulo256
  exact checksum_toNat

section
variable {op : Byte} {p : List Byte}

/-- The frame builder outside its domain (R82). -/
theorem buildFrame_eq_none (h : 255 < p.length) : buildFrame op p = none := by
  rw [buildFrame, if_neg (show ¬ p.length ≤ Config.payloadMax from Nat.not_le_of_lt h)]

/-- Sending a frame outside the frame builder's domain (R82, R83). -/
theorem sendFrame_refused (h : 255 < p.length) (rest : State → State) (s : State) :
    sendFrame op p rest s = .refused .payloadTooLong := by
  rw [sendFrame, buildFrame_eq_none h]

end

/-- Settles O3: up to 255 payload bytes the frame is the one of `frameOf`, whose body opens with header, opcode and
length; beyond, the builder gives none and sending is refused. -/
theorem frameIsPrefixPayloadChecksum : Obligations.FrameIsPrefixPayloadChecksum := by
  unfold Obligations.FrameIsPrefixPayloadChecksum
  intro op p
  constructor
  · intro hshort
    exact ⟨frameOf op p, buildFrame_eq hshort, rfl, frameOf_length op p⟩
  · intro hlong
    exact ⟨buildFrame_eq_none hlong, sendFrame_refused hlong⟩

end Sys2Proof.Machine
end

-- ==== Proofs of the family 41_zero_payload_commands.md ====
section
/-! PROOF. 41_zero_payload_commands.md R90 to R101: a fire-and-forget command whose write returns, and the constant
frames of the commands without a payload. -/

namespace Sys2Proof.Machine

/-- A fire-and-forget command whose write returns hands its whole frame over and ends (R85, R86); the operand stream
is left alone. -/
theorem fireAndForget_fired {op : Byte} {p : List Byte} {s : State} (hp : p.length ≤ 255)
    (hw : writeReturns (p.length + 4) s = true) :
    ∃ t, fireAndForget op p s = .next t ∧ Fired (frameOf op p) s t ∧ t.stream = s.stream := by
  refine ⟨finish 0x0000#16 (sentState op p (accept s)), ?_, ?_, rfl⟩
  · rw [fireAndForget_next hp, writePhase_whole (s := accept s) hw]
  · exact { tx := rfl, result := rfl, err := rfl, busy := rfl, phase := rfl
            kept := ⟨rfl, rfl, rfl, rfl, rfl, rfl, rfl, rfl⟩, noRead := ⟨rfl, rfl, rfl⟩ }

/-- The frame of a command without a payload (R90): header, opcode, length 0, and a checksum that the length does not
change. -/
theorem frameOf_nil (op : Byte) : frameOf op [] = [0xAA#8, op, 0x00#8, 0xAA#8 + op] := by
  have hsum : checksum (frameBody op []) = 0xAA#8 + op := by
    rw [← runningSum_eq_checksum]
    simp [frameBody, runningSum, Config.header]
  rw [frameOf, hsum]
  rfl

/-- A command that fires opcode `op` without a payload, as every command of R91 to R101 does, ends with the frame of
R90 handed over, provided its write returns. -/
theorem exec_fired_of_zeroPayload {i : Instr} {op : Byte} {s : State} (hi : exec i s = fireAndForget op [] s)
    (hw : writeReturns 4 s = true) :
    ∃ t, exec i s = .next t ∧ Fired [0xAA#8, op, 0x00#8, 0xAA#8 + op] s t ∧ t.stream = s.stream := by
  rw [hi, ← frameOf_nil]
  exact fireAndForget_fired (p := []) (Nat.zero_le 255) hw

/-- Settles O9: each row of the table fires its opcode without a payload. -/
theorem zeroPayloadCommandsSendTheirFrames : Obligations.ZeroPayloadCommandsSendTheirFrames := by
  unfold Obligations.ZeroPayloadCommandsSendTheirFrames
  intro s e he hw
  simp only [List.mem_cons, List.not_mem_nil, or_false] at he
  rcases he with rfl | rfl | rfl | rfl | rfl | rfl | rfl | rfl | rfl | rfl | rfl
  · exact exec_fired_of_zeroPayload (exec_play s) hw
  · exact exec_fired_of_zeroPayload (exec_pause s) hw
  · exact exec_fired_of_zeroPayload (exec_stop s) hw
  · exact exec_fired_of_zeroPayload (exec_previous s) hw
  · exact exec_fired_of_zeroPayload (exec_next s) hw
  · exact exec_fired_of_zeroPayload (exec_previousDirLast s) hw
  · exact exec_fired_of_zeroPayload (exec_previousDirFirst s) hw
  · exact exec_fired_of_zeroPayload (exec_stopInterlude s) hw
  · exact exec_fired_of_zeroPayload (exec_volumeUp s) hw
  · exact exec_fired_of_zeroPayload (exec_volumeDown s) hw
  · exact exec_fired_of_zeroPayload (exec_endCombinationPlay s) hw

end Sys2Proof.Machine
end

-- ==== Proofs of the family 42_numeric_payload_commands.md ====
section
/-! PROOF. 42_numeric_payload_commands.md R106, R107, R113: the frames of the commands whose payload holds a 16-bit
number, high byte first. -/

namespace Sys2Proof.Machine

theorem hi_toNat (n : Half) : (hi n).toNat = n.toNat / 256 := by
  have hn : n.toNat < 65536 := n.isLt
  rw [hi_eq, BitVec.toNat_ofNat]
  omega

theorem lo_toNat (n : Half) : (lo n).toNat = n.toNat % 256 := by
  rw [lo_eq, BitVec.toNat_ofNat]
  omega

/-- The checksum of a frame as a sum of naturals (R80, R82): the length byte, itself modulo 256, counts as the length,
since the checksum is modulo 256 too. -/
theorem checksum_frameBody (op : Byte) (p : List Byte) :
    checksum (frameBody op p)
      = BitVec.ofNat 8 (0xAA + op.toNat + p.length + (p.map BitVec.toNat).sum) := by
  apply BitVec.eq_of_toNat_eq
  rw [checksum_toNat, BitVec.toNat_ofNat]
  simp only [frameBody, Config.header, List.map_cons, List.sum_cons, BitVec.toNat_ofNat]
  omega

/-- The frame of format `H`: the number's high byte, then its low byte. -/
theorem frameOf_numPayload (op : Byte) (n : Half) :
    frameOf op (numPayload n) =
      [0xAA#8, op, 0x02#8, BitVec.ofNat 8 (n.toNat / 256), BitVec.ofNat 8 (n.toNat % 256),
        BitVec.ofNat 8 (0xAA + op.toNat + 0x02 + n.toNat / 256 + n.toNat % 256)] := by
  have hsum : ((numPayload n).map BitVec.toNat).sum = n.toNat / 256 + n.toNat % 256 := by
    simp [numPayload, hi_toNat, lo_toNat]
  rw [frameOf, checksum_frameBody, hsum, ← hi_eq, ← lo_eq, ← Nat.add_assoc]
  rfl

/-- The frame of format `DH`: the device byte, then the number. -/
theorem frameOf_devNumPayload (op d : Byte) (n : Half) :
    frameOf op (devNumPayload d n) =
      [0xAA#8, op, 0x03#8, d, BitVec.ofNat 8 (n.toNat / 256), BitVec.ofNat 8 (n.toNat % 256),
        BitVec.ofNat 8 (0xAA + op.toNat + 0x03 + d.toNat + n.toNat / 256 + n.toNat % 256)] := by
  have hsum : ((devNumPayload d n).map BitVec.toNat).sum = d.toNat + n.toNat / 256 + n.toNat % 256 := by
    simp [devNumPayload, hi_toNat, lo_toNat, Nat.add_assoc]
  rw [frameOf, checksum_frameBody, hsum, ← hi_eq, ← lo_eq, ← Nat.add_assoc, ← Nat.add_assoc]
  rfl

/-- A command that fires opcode `op` with a number as its payload, as those of R106 and R107 do, ends with the frame of
format `H` handed over, provided its write returns. -/
theorem exec_fired_of_numPayload {i : Instr} {op : Byte} {n : Half} {s : State}
    (he : exec i s = fireAndForget op (numPayload n) s) (hw : writeReturns 6 s = true) :
    ∃ t, exec i s = .next t ∧
      Fired [0xAA#8, op, 0x02#8, BitVec.ofNat 8 (n.toNat / 256), BitVec.ofNat 8 (n.toNat % 256),
        BitVec.ofNat 8 (0xAA + op.toNat + 0x02 + n.toNat / 256 + n.toNat % 256)] s t ∧
      t.stream = s.stream := by
  have hlen : (numPayload n).length = 2 := rfl
  rw [he, ← frameOf_numPayload]
  exact fireAndForget_fired (by omega) hw

/-- Settles O10: PLAY_BY_NUMBER and SELECT send a frame of format `H`, INTERLUDE_BY_NUMBER one of format `DH`. -/
theorem numberCommandsSendBigEndian : Obligations.NumberCommandsSendBigEndian := by
  unfold Obligations.NumberCommandsSendBigEndian
  intro s d n
  refine ⟨?playByNumber, ?select, ?interludeByNumber⟩
  case playByNumber => exact exec_fired_of_numPayload (exec_playByNumber n s)
  case select => exact exec_fired_of_numPayload (exec_select n s)
  case interludeByNumber =>
    intro hw
    have hlen : (devNumPayload d n).length = 3 := rfl
    have hfired := fireAndForget_fired (op := 0x0B#8) (p := devNumPayload d n) (by omega) hw
    rwa [frameOf_devNumPayload, ← exec_interludeByNumber] at hfired

end Sys2Proof.Machine
end

-- ==== Proofs of the family 43_path_commands.md ====
section
/-! PROOF. 43_path_commands.md R122 and R123: the length of an encoded path, and the empty path. -/

namespace Sys2Proof.Machine

/-! ### The length of an encoded path -/

/-- Behind the leading byte a `'/'` costs two bytes and any other byte one (R120, R122). -/
theorem escapeByte_length (upper : Bool) (c : Byte) :
    (escapeByte upper c).length = if c = slash then 2 else 1 := by
  by_cases hd : c = dot
  · subst hd
    rfl
  · by_cases hs : c = slash
    · rw [escapeByte, if_neg hd, if_pos hs, if_pos hs]
      rfl
    · rw [escapeByte, if_neg hd, if_neg hs, if_neg hs]
      rfl

/-- So escaping adds one byte for each `'/'`. -/
theorem flatMap_escapeByte_length (upper : Bool) (rest : List Byte) :
    (rest.flatMap (escapeByte upper)).length = rest.length + rest.count slash := by
  induction rest with
  | nil => rfl
  | cons c rest ih =>
    rw [List.flatMap_cons, List.length_append, ih, escapeByte_length, List.length_cons]
    by_cases hs : c = slash
    · rw [if_pos hs, hs, List.count_cons_self]
      omega
    · rw [if_neg hs, List.count_cons_of_ne hs]
      omega

/-- The leading byte is copied, whatever it is (R120). -/
theorem encodePath_cons_length (c : Byte) (rest : List Byte) (upper : Bool) :
    (encodePath (c :: rest) upper).length = 1 + rest.length + rest.count slash := by
  rw [encodePath, List.length_cons, flatMap_escapeByte_length]
  omega

theorem pathPayload_length (d : Byte) (p : List Byte) (upper : Bool) :
    (pathPayload d p upper).length = 1 + (encodePath p upper).length := by
  rw [pathPayload, List.length_cons, Nat.add_comm]

/-- Settles O16: a path's tail grows by its number of `'/'`, which is at most its length. -/
theorem encodedPathLength : Obligations.EncodedPathLength := by
  unfold Obligations.EncodedPathLength
  intro p upper hp
  cases p with
  | nil => exact absurd hp (by decide)
  | cons c rest =>
    have hlen := encodePath_cons_length c rest upper
    have hcount : rest.count slash ≤ rest.length := List.count_le_length
    rw [List.length_cons, List.tail_cons]
    exact ⟨hlen, by omega, by omega, fun d => pathPayload_length d (c :: rest) upper⟩

/-! ### The empty path -/

/-- A command that is a silent no-op ends normally with nothing handed over, and S is left alone (R123). -/
theorem silentNoOp_fired (s : State) : Fired [] s (silentNoOp s) ∧ (silentNoOp s).stream = s.stream :=
  ⟨{ tx := (List.append_nil s.tx).symm, result := rfl, err := rfl, busy := rfl, phase := rfl
     kept := ⟨rfl, rfl, rfl, rfl, rfl, rfl, rfl, rfl⟩, noRead := ⟨rfl, rfl, rfl⟩ }, rfl⟩

/-- A path command on the empty path is the silent no-op (R125). -/
theorem pathCommand_nil (op d : Byte) (s : State) : pathCommand op d [] s = .next (silentNoOp s) := rfl

/-- Settles O14: both path commands are the silent no-op on the empty path. -/
theorem emptyPathIsASilentNoOp : Obligations.EmptyPathIsASilentNoOp := by
  unfold Obligations.EmptyPathIsASilentNoOp
  intro s d i hi
  simp only [List.mem_cons, List.not_mem_nil, or_false] at hi
  rcases hi with rfl | rfl
  · exact ⟨silentNoOp s, (exec_playByPath d [] s).trans (pathCommand_nil 0x08#8 d s), silentNoOp_fired s⟩
  · exact ⟨silentNoOp s, (exec_interludeByPath d [] s).trans (pathCommand_nil 0x17#8 d s), silentNoOp_fired s⟩

end Sys2Proof.Machine
end

-- ==== Proofs of the family 44_combination_play.md ====
section
/-! PROOF. 44_combination_play.md R138: the edge case of a combination play without tokens. -/

namespace Sys2Proof.Machine

/-- COMBINATION_PLAY on the empty token list is the silent no-op: not even the prefix is streamed (R138). -/
theorem execCombinationPlay_nil (s : State) : execCombinationPlay [] s = .next (silentNoOp s) := rfl

/-- Settles O21: the command is the silent no-op, which hands nothing over and leaves S alone. -/
theorem emptyTokenListIsASilentNoOp : Obligations.EmptyTokenListIsASilentNoOp := by
  unfold Obligations.EmptyTokenListIsASilentNoOp
  intro s
  have hexec : exec (.combinationPlay []) s = .next (silentNoOp s) :=
    (exec_combinationPlay [] s).trans (execCombinationPlay_nil s)
  exact ⟨silentNoOp s, hexec, silentNoOp_fired s⟩

end Sys2Proof.Machine
end

-- ==== Proofs of the family 45_query_commands.md ====
section
/-! PROOF. 45_query_commands.md R146, R152 to R157: the validation of a response, and the six queries by the answer to
their one read. -/

namespace Sys2Proof.Machine

/-! ### Validation -/

/-- R146 on a response split into its last byte and the others. -/
theorem validate_concat (bs : List Byte) (c : Byte) : validate (bs ++ [c]) = true ↔ c = checksum bs := by
  simp [validate]

/-- Two byte lists that differ in one place at most have the same checksum only if they are equal there too: the
difference of two bytes is less than 256. -/
theorem checksum_replace_inj {a b : List Byte} {c d : Byte} :
    checksum (a ++ c :: b) = checksum (a ++ d :: b) ↔ c = d := by
  refine ⟨fun h => BitVec.eq_of_toNat_eq ?_, fun h => h ▸ rfl⟩
  have hsum := congrArg BitVec.toNat h
  have hc : c.toNat < 256 := c.isLt
  have hd : d.toNat < 256 := d.isLt
  simp only [checksum_toNat, List.map_append, List.map_cons, List.sum_append, List.sum_cons] at hsum
  omega

/-- Putting another byte in the place of any one byte of a valid response makes it invalid: in the last place the byte
is no longer the checksum, in any other the checksum is no longer the byte. -/
theorem validate_replace_eq_false {a b : List Byte} {c d : Byte} (hne : d ≠ c)
    (hv : validate (a ++ c :: b) = true) : validate (a ++ d :: b) = false := by
  rw [← Bool.not_eq_true]
  intro hv'
  rcases List.eq_nil_or_concat b with rfl | ⟨b, e, rfl⟩
  · rw [validate_concat] at hv hv'
    exact hne (hv'.trans hv.symm)
  · rw [List.concat_eq_append, ← List.cons_append, ← List.append_assoc, validate_concat] at hv hv'
    exact hne (checksum_replace_inj.1 (hv'.symm.trans hv))

/-- Flipping a bit changes the byte. -/
theorem xor_twoPow_ne {k : Nat} (hk : k < 8) (c : Byte) : c ^^^ BitVec.ofNat 8 (2 ^ k) ≠ c := by
  intro h
  have hbit := congrArg (·.getLsbD k) h
  simp only [BitVec.getLsbD_xor, BitVec.getLsbD_ofNat, Nat.testBit_two_pow_self] at hbit
  simp [hk] at hbit

theorem checksum_replicate_zero (n : Nat) : checksum (List.replicate n 0#8) = 0#8 := by
  simp [checksum]

/-- Settles O4: a flipped bit is another byte in the same place. -/
theorem validationDetectsEverySingleBitFlip : Obligations.ValidationDetectsEverySingleBitFlip := by
  unfold Obligations.ValidationDetectsEverySingleBitFlip
  refine ⟨validate_concat, fun a b c k hk => validate_replace_eq_false (xor_twoPow_ne hk c), fun n => ?_⟩
  rw [List.replicate_succ', validate_concat, checksum_replicate_zero]

/-! ### A query by its answer -/

section
variable {cls : RespClass} {n : Nat} {v : Half} {bs : List Byte} {s : State}

/-- Too few bytes (R151). -/
theorem judgeResponse_short (h : bs.length < n) : judgeResponse cls n v bs s = takeError .comm v s := by
  rw [judgeResponse, if_pos h]

/-- A full length with a wrong checksum (R151). -/
theorem judgeResponse_corrupted (hpos : 0 < n) (hlen : bs.length = n) (hv : validate bs = false) :
    judgeResponse cls n v bs s = takeError .csum v s := by
  rw [judgeResponse, if_neg hlen.not_lt, responseValid_of_pos (hlen ▸ hpos), hv, if_neg Bool.false_ne_true]

/-- A full length with the right checksum (R151). -/
theorem judgeResponse_valid (hpos : 0 < n) (hlen : bs.length = n) (hv : validate bs = true) :
    judgeResponse cls n v bs s = finish (cls.value (Config.missingData s.reads) bs) s := by
  rw [judgeResponse, if_neg hlen.not_lt, responseValid_of_pos (hlen ▸ hpos), hv, if_pos rfl]

end

/-- The state of a query whose frame was sent and whose read of `n` bytes was answered, before the answer is judged
(R151). -/
def answeredState (op : Byte) (n : Nat) (bs : List Byte) (s : State) : State :=
  rxAnswered n bs { sentState op [] (accept s) with phase := .read }

section
variable {op : Byte} {cls : RespClass} {n : Nat} {v : Half} {bs : List Byte} {s : State}

theorem query_answered (hw : writeReturns 4 s = true) (ha : nextAnswer (cls.readLength s.par) s = .bytes bs) :
    query op cls v s = .next (judgeResponse cls (cls.readLength s.par) v (bs.take (cls.readLength s.par))
      (answeredState op (cls.readLength s.par) bs s)) :=
  query_bytes hw ha

/-- A query that ends by error entry has sent its frame and made its read; RESULT is the sentinel (60 R172). -/
theorem takeError_queried (e : Err) :
    Queried (frameOf op []) n (bs.take n) v e s (takeError e v (answeredState op n bs s)) where
  tx := rfl
  result := rfl
  err := rfl
  busy := rfl
  phase := rfl
  rx := rfl
  answers := rfl
  reads := rfl
  stream := rfl
  kept := ⟨rfl, rfl, rfl, rfl, rfl, rfl, rfl, rfl⟩

/-- A query's normal end is error entry with the value as its sentinel and no error (R85, 60 R172). -/
theorem finish_eq_takeError (v : Half) (s : State) : finish v s = takeError .none v s := rfl

/-- A query whose write returns and whose read is answered ends in one way for each verdict on the answer: too short,
corrupted, valid (R145, R151). -/
theorem query_queried (hw : writeReturns 4 s = true) (hn : cls.readLength s.par = n)
    (ha : nextAnswer n s = .bytes bs) :
    ∃ t, query op cls v s = .next t ∧
      (bs.length < n → Queried (frameOf op []) n bs v .comm s t) ∧
      (1 ≤ n → n ≤ bs.length → validate (bs.take n) = false →
        Queried (frameOf op []) n (bs.take n) v .csum s t) ∧
      (1 ≤ n → n ≤ bs.length → validate (bs.take n) = true →
        ∃ free, Queried (frameOf op []) n (bs.take n) (cls.value free (bs.take n)) .none s t) := by
  subst hn
  refine ⟨_, query_answered hw ha, ?short, ?corrupted, ?valid⟩
  case short =>
    intro hlt
    have htake : bs.take (cls.readLength s.par) = bs := List.take_of_length_le (Nat.le_of_lt hlt)
    rw [judgeResponse_short (htake.symm ▸ hlt)]
    have hq := takeError_queried (op := op) (n := cls.readLength s.par) (v := v) (bs := bs) (s := s) .comm
    rwa [htake] at hq
  case corrupted =>
    intro hpos hle hv
    rw [judgeResponse_corrupted hpos (List.length_take_of_le hle) hv]
    exact takeError_queried .csum
  case valid =>
    intro hpos hle hv
    rw [judgeResponse_valid hpos (List.length_take_of_le hle) hv, finish_eq_takeError]
    exact ⟨_, takeError_queried .none⟩

end

/-! ### The value of a valid answer -/

/-- The byte at offset 3 of a response that was cut behind it (R147). -/
theorem resp8_value_take {n : Nat} {bs : List Byte} {b : Byte} (hn : 4 ≤ n) (h3 : bs[3]? = some b) (free : Byte) :
    RespClass.resp8.value free (bs.take n) = BitVec.ofNat 16 b.toNat := by
  have h3' : (bs.take n)[3]? = some b := by rw [List.getElem?_take_of_lt hn, h3]
  rw [RespClass.value, decode8, List.getD_eq_getElem?_getD, h3', Option.getD_some, zext16, BitVec.ofNat_toNat]

/-- The number at offsets 3 and 4 of a response that was cut behind them, high byte first (R148). -/
theorem resp16_value_take {n : Nat} {bs : List Byte} {h l : Byte} (hn : 5 ≤ n) (h3 : bs[3]? = some h)
    (h4 : bs[4]? = some l) (free : Byte) :
    RespClass.resp16.value free (bs.take n) = BitVec.ofNat 16 (256 * h.toNat + l.toNat) := by
  have h3' : byteAt (bs.take n) 3 = h := by
    rw [byteAt, List.getD_eq_getElem?_getD, List.getElem?_take_of_lt (by omega), h3, Option.getD_some]
  have h4' : byteAt (bs.take n) 4 = l := by
    rw [byteAt, List.getD_eq_getElem?_getD, List.getElem?_take_of_lt hn, h4, Option.getD_some]
  rw [RespClass.value, decode16, h3', h4', ← join_toNat, BitVec.ofNat_toNat, BitVec.setWidth_eq]

/-! ### The six queries -/

section
variable {i : Instr} {op : Byte} {s : State} {bs : List Byte}

/-- A command that is the 8-bit query of opcode `op` with a sentinel, as R152 and R153 make it. -/
theorem exec_queried_of_resp8 {fail : Byte} (hi : exec i s = query op .resp8 (zext16 fail) s)
    (hw : writeReturns 4 s = true) (ha : nextAnswer s.par.rlen8 s = .bytes bs) :
    ∃ t, exec i s = .next t ∧
      (bs.length < s.par.rlen8 →
        Queried [0xAA#8, op, 0x00#8, 0xAA#8 + op] s.par.rlen8 bs (zext16 fail) .comm s t) ∧
      (1 ≤ s.par.rlen8 → s.par.rlen8 ≤ bs.length → validate (bs.take s.par.rlen8) = false →
        Queried [0xAA#8, op, 0x00#8, 0xAA#8 + op] s.par.rlen8 (bs.take s.par.rlen8) (zext16 fail) .csum s t) ∧
      (4 ≤ s.par.rlen8 → s.par.rlen8 ≤ bs.length → validate (bs.take s.par.rlen8) = true →
        ∃ v, bs[3]? = some v ∧
          Queried [0xAA#8, op, 0x00#8, 0xAA#8 + op] s.par.rlen8 (bs.take s.par.rlen8)
            (BitVec.ofNat 16 v.toNat) .none s t) := by
  obtain ⟨t, ht, hshort, hcorrupted, hvalid⟩ :=
    query_queried (op := op) (cls := .resp8) (v := zext16 fail) (n := s.par.rlen8) hw rfl ha
  rw [frameOf_nil] at hshort hcorrupted hvalid
  refine ⟨t, hi.trans ht, hshort, hcorrupted, fun h4 hle hv => ?_⟩
  obtain ⟨free, hq⟩ := hvalid (by omega) hle hv
  have h3 : bs[3]? = some bs[3] := List.getElem?_eq_getElem (by omega)
  exact ⟨bs[3], h3, resp8_value_take h4 h3 free ▸ hq⟩

/-- A command that is the 16-bit query of opcode `op`, as R154 to R157 make it. -/
theorem exec_queried_of_resp16 (hi : exec i s = query op .resp16 Config.countFail s)
    (hw : writeReturns 4 s = true) (ha : nextAnswer 6 s = .bytes bs) :
    ∃ t, exec i s = .next t ∧
      (bs.length < 6 → Queried [0xAA#8, op, 0x00#8, 0xAA#8 + op] 6 bs 0x0000#16 .comm s t) ∧
      (6 ≤ bs.length → validate (bs.take 6) = false →
        Queried [0xAA#8, op, 0x00#8, 0xAA#8 + op] 6 (bs.take 6) 0x0000#16 .csum s t) ∧
      (6 ≤ bs.length → validate (bs.take 6) = true →
        ∃ h l, bs[3]? = some h ∧ bs[4]? = some l ∧
          Queried [0xAA#8, op, 0x00#8, 0xAA#8 + op] 6 (bs.take 6)
            (BitVec.ofNat 16 (256 * h.toNat + l.toNat)) .none s t) := by
  obtain ⟨t, ht, hshort, hcorrupted, hvalid⟩ :=
    query_queried (op := op) (cls := .resp16) (v := Config.countFail) (n := 6) hw rfl ha
  rw [frameOf_nil] at hshort hcorrupted hvalid
  refine ⟨t, hi.trans ht, hshort, hcorrupted (by decide), fun hle hv => ?_⟩
  obtain ⟨free, hq⟩ := hvalid (by decide) hle hv
  have h3 : bs[3]? = some bs[3] := List.getElem?_eq_getElem (by omega)
  have h4 : bs[4]? = some bs[4] := List.getElem?_eq_getElem (by omega)
  exact ⟨bs[3], bs[4], h3, h4, resp16_value_take (n := 6) (by decide) h3 h4 free ▸ hq⟩

end

/-- Settles O23: each row of the table is an 8-bit query with its opcode and sentinel. -/
theorem eightBitQueriesReadAndDecode : Obligations.EightBitQueriesReadAndDecode := by
  unfold Obligations.EightBitQueriesReadAndDecode
  intro s bs e he hw ha
  simp only [List.mem_cons, List.not_mem_nil, or_false] at he
  rcases he with rfl | rfl
  · exact exec_queried_of_resp8 (exec_queryPlayState s) hw ha
  · exact exec_queried_of_resp8 (exec_queryPlayingDevice s) hw ha

/-- Settles O25: each row of the table is a 16-bit query with its opcode. -/
theorem sixteenBitQueriesReadAndDecode : Obligations.SixteenBitQueriesReadAndDecode := by
  unfold Obligations.SixteenBitQueriesReadAndDecode
  intro s bs e he hw ha
  simp only [List.mem_cons, List.not_mem_nil, or_false] at he
  rcases he with rfl | rfl | rfl | rfl
  · exact exec_queried_of_resp16 (exec_querySoundCount s) hw ha
  · exact exec_queried_of_resp16 (exec_queryPlayingSound s) hw ha
  · exact exec_queried_of_resp16 (exec_queryDirFirst s) hw ha
  · exact exec_queried_of_resp16 (exec_queryDirCount s) hw ha

end Sys2Proof.Machine
end

-- ==== Proofs of the family 60_exceptions.md ====
section
/-! PROOF. 60_exceptions.md R169: the two errors of a query as an observer of RESULT sees them. -/

namespace Sys2Proof.Machine

/-- Each of the six queries is the shared query of its own opcode, reply class and sentinel (R151). -/
theorem exec_of_isQuery {i : Instr} (hq : i.isQuery = true) (s : State) :
    exec i s = query i.opcode i.queryClass (i.sentinel s.par) s := by
  cases i with
  | queryPlayState => exact exec_queryPlayState s
  | queryPlayingDevice => exact exec_queryPlayingDevice s
  | querySoundCount => exact exec_querySoundCount s
  | queryPlayingSound => exact exec_queryPlayingSound s
  | queryDirFirst => exact exec_queryDirFirst s
  | queryDirCount => exact exec_queryDirCount s
  | _ => cases hq

section
variable {i : Instr} {s : State} {bs : List Byte}

/-- A CommunicationError: the read obtained too few bytes (R166). -/
theorem exec_query_short (hq : i.isQuery = true) (hw : writeReturns 4 s = true)
    (ha : nextAnswer (i.queryClass.readLength s.par) s = .bytes bs)
    (hlen : bs.length < i.queryClass.readLength s.par) :
    ∃ t, exec i s = .next t ∧ t.result = i.sentinel s.par ∧ t.err = .comm := by
  obtain ⟨t, ht, hshort, -, -⟩ := query_queried (op := i.opcode) (v := i.sentinel s.par) hw rfl ha
  exact ⟨t, (exec_of_isQuery hq s).trans ht, (hshort hlen).result, (hshort hlen).err⟩

/-- A ChecksumError: the read obtained every byte and the checksum is wrong (R167). -/
theorem exec_query_corrupted (hq : i.isQuery = true) (hw : writeReturns 4 s = true)
    (ha : nextAnswer (i.queryClass.readLength s.par) s = .bytes bs) (hpos : 0 < bs.length)
    (hlen : bs.length = i.queryClass.readLength s.par) (hv : validate bs = false) :
    ∃ t, exec i s = .next t ∧ t.result = i.sentinel s.par ∧ t.err = .csum := by
  obtain ⟨t, ht, -, hcorrupted, -⟩ := query_queried (op := i.opcode) (v := i.sentinel s.par) hw rfl ha
  have hqd := hcorrupted (hlen ▸ hpos) hlen.ge (by rwa [List.take_of_length_le hlen.le])
  exact ⟨t, (exec_of_isQuery hq s).trans ht, hqd.result, hqd.err⟩

end

/-- Settles O29: both runs end with the query's own sentinel, each with its own error. -/
theorem errorsCollapseInResult : Obligations.ErrorsCollapseInResult := by
  unfold Obligations.ErrorsCollapseInResult
  intro i s a b rest hq hw ha hb hv
  have hpos : 0 < b.length := hb ▸ Nat.zero_lt_of_lt ha
  obtain ⟨t, ht, htr, hte⟩ := exec_query_short (s := { s with answers := .bytes a :: rest }) hq hw rfl ha
  obtain ⟨u, hu, hur, hue⟩ :=
    exec_query_corrupted (s := { s with answers := .bytes b :: rest }) hq hw rfl hpos hb hv
  exact ⟨t, u, ht, hu, htr, hur.trans htr.symm, hte, hue⟩

end Sys2Proof.Machine
end

-- ==== Proofs of the family other ====
section
/-! PROOF. The statements about every command, the two encodings, a step, the invariant and the sequencer, and those
of the families of the spec's files that the sections above leave. -/

namespace Sys2Proof.Machine

/-! ### The command port and back -/

/-- Tokens read from an even number of bytes are those bytes again (44 R135). -/
theorem tokenBytes_pairTokens : ∀ {bs : List Byte}, bs.length % 2 = 0 → tokenBytes (pairTokens bs) = bs
  | [], _ => rfl
  | [_], h => by simp at h
  | a :: b :: rest, h => by
    have ih := tokenBytes_pairTokens (bs := rest) (by simp only [List.length_cons] at h; omega)
    rw [pairTokens, tokenBytes, List.flatMap_cons, ← tokenBytes, ih]
    rfl

/-- The stream of a port presentation is as long as `A.CNT` announces, so all of it is taken. -/
theorem stream_take_streamLength {i : Instr}
    (h : (encodePort i).stream.length = streamLength (encodePort i)) :
    ¬ (encodePort i).stream.length < streamLength (encodePort i) ∧
      (encodePort i).stream.take (streamLength (encodePort i)) = (encodePort i).stream := by
  rw [← h, List.take_length]
  exact ⟨lt_irrefl _, rfl⟩

/-- Settles O41: the commands without a stream are read off OPSEL and the operand registers; a path or a token list
comes back whole, since its length is in `A.CNT`. -/
theorem portDecodingInvertsPortEncoding : Obligations.PortDecodingInvertsPortEncoding := by
  unfold Obligations.PortDecodingInvertsPortEncoding
  intro w i hwf hrow
  cases i with
  | playByPath d p =>
    obtain ⟨hlt, htake⟩ := stream_take_streamLength (Laws.PortShape.playByPath d p hwf).2
    exact (if_neg hlt).trans (congrArg (fun q => Except.ok (Instr.playByPath d q)) htake)
  | interludeByPath d p =>
    obtain ⟨hlt, htake⟩ := stream_take_streamLength (Laws.PortShape.interludeByPath d p hwf).2
    exact (if_neg hlt).trans (congrArg (fun q => Except.ok (Instr.interludeByPath d q)) htake)
  | combinationPlay ts =>
    obtain ⟨hlt, htake⟩ := stream_take_streamLength (Laws.PortShape.combinationPlay ts hwf).2
    refine (if_neg hlt).trans (congrArg (fun q => Except.ok (Instr.combinationPlay q)) ?_)
    rw [htake]
    exact pairTokens_tokenBytes ts
  | setCycleTimesW1 n =>
    cases w with
    | one => rfl
    | two => cases hrow
  | setCycleTimesW2 n =>
    cases w with
    | one => cases hrow
    | two => rfl
  | _ => rfl

/-! ### The wire and back -/

/-- What can be encoded has its count within its row and a payload within the length byte; its words are the body
of its frame. -/
theorem encode_eq_some {upper : Bool} {i : Instr} {w : List Byte} :
    encode upper i = some w ↔
      i.fitsRow = true ∧ (i.payload upper).length ≤ 255 ∧ frameBody i.opcode (i.payload upper) = w := by
  simp only [encode, frameBody]
  split <;> simp_all

/-- Decoding is by the opcode and the payload bytes that the length byte announces; what follows is left. -/
theorem decode_frameBody {op : Byte} {p : List Byte} (hp : p.length ≤ 255) (rest : List Byte) :
    decode (frameBody op p ++ rest) = (decodePayload op.toNat p).map (·, rest) := by
  have hlen : (BitVec.ofNat 8 p.length).toNat = p.length := by rw [BitVec.toNat_ofNat]; omega
  simp only [frameBody, List.cons_append, decode, hlen, List.take_left, List.drop_left]
  rw [if_neg (by simp), if_neg (by simp)]
  cases decodePayload op.toNat p <;> rfl

/-- The byte that the decoder reads for an escaped one: of the bytes with the same escape, `'.'` for `'*'` and the
folded letter for a letter that is folded (log 21). -/
def canonicalByte (upper : Bool) (c : Byte) : Byte := if c = star then dot else fold c upper

/-- Folding changes no byte below `'a'`, so none of `'*'`, `'.'` and `'/'`. -/
theorem fold_of_lt {c : Byte} (h : c.toNat < 0x61) (upper : Bool) : fold c upper = c := by
  simp [fold, Nat.not_le_of_lt h]

/-- A byte that folding changes becomes a capital letter (43 R121). -/
theorem fold_eq_or_capital (c : Byte) (upper : Bool) :
    fold c upper = c ∨ 0x41 ≤ (fold c upper).toNat ∧ (fold c upper).toNat ≤ 0x5A := by
  unfold fold
  split
  · rename_i h
    simp only [Bool.and_eq_true, decide_eq_true_eq] at h
    right
    rw [BitVec.toNat_sub]
    simp only [BitVec.toNat_ofNat]
    omega
  · exact .inl rfl

theorem fold_fold (c : Byte) (upper : Bool) : fold (fold c upper) upper = fold c upper := by
  rcases fold_eq_or_capital c upper with h | ⟨-, h⟩
  · rw [h, h]
  · exact fold_of_lt (by omega) upper

/-- Folding makes no byte below `'A'` (43 R121). -/
theorem fold_eq_iff {c b : Byte} (hb : b.toNat < 0x41) (upper : Bool) : fold c upper = b ↔ c = b := by
  refine ⟨fun h => ?_, fun h => h ▸ fold_of_lt (by rw [h]; omega) upper⟩
  rcases fold_eq_or_capital c upper with h' | ⟨h', -⟩
  · exact h'.symm.trans h
  · rw [h] at h'
    omega

theorem escapeByte_dot (upper : Bool) : escapeByte upper dot = [star] := rfl

theorem escapeByte_slash (upper : Bool) : escapeByte upper slash = [star, slash] := rfl

theorem escapeByte_other {c : Byte} (hd : c ≠ dot) (hs : c ≠ slash) (upper : Bool) :
    escapeByte upper c = [fold c upper] := by
  rw [escapeByte, if_neg hd, if_neg hs]

/-- Escaping the byte read gives the same bytes as escaping the byte that was sent. -/
theorem escapeByte_canonicalByte (upper : Bool) (c : Byte) :
    escapeByte upper (canonicalByte upper c) = escapeByte upper c := by
  unfold canonicalByte
  split
  · rename_i h
    subst h
    rw [escapeByte_other (c := star) (by decide) (by decide), fold_of_lt (by decide)]
    rfl
  · by_cases hd : c = dot
    · rw [hd, fold_of_lt (by decide)]
    · by_cases hs : c = slash
      · rw [hs, fold_of_lt (by decide)]
      · rw [escapeByte_other hd hs,
          escapeByte_other (by rwa [Ne, fold_eq_iff (by decide)]) (by rwa [Ne, fold_eq_iff (by decide)]), fold_fold]

/-- An escaped path starts with no `'/'`: a `'/'` has its `'*'` in front (43 R120). -/
theorem head?_flatMap_escapeByte_ne (upper : Bool) (rest : List Byte) :
    (rest.flatMap (escapeByte upper)).head? ≠ some slash := by
  cases rest with
  | nil => simp
  | cons c rest =>
    by_cases hd : c = dot
    · subst hd; simp [escapeByte, star, slash]
    · by_cases hs : c = slash
      · subst hs; simp [escapeByte, dot, star, slash]
      · rw [List.flatMap_cons, escapeByte_other hd hs]
        simpa [fold_eq_iff (b := slash) (by decide)] using hs

/-- One byte that is no escape is read as it stands. -/
theorem unescapePath_cons {c : Byte} (hd : c ≠ dot) (hs : c ≠ slash) (ht : c ≠ star) (bs : List Byte) :
    unescapePath (c :: bs) = (unescapePath bs).map (c :: ·) := by
  cases bs <;> simp [unescapePath, hd, hs, ht]

/-- An escape byte with no `'/'` behind it is read as `'.'` (log 21). -/
theorem unescapePath_star {bs : List Byte} (h : bs.head? ≠ some slash) :
    unescapePath (star :: bs) = (unescapePath bs).map (dot :: ·) := by
  cases bs with
  | nil => rfl
  | cons e bs =>
    have he : e ≠ slash := by simpa using h
    simp [unescapePath, he, show star ≠ dot by decide, show star ≠ slash by decide]

theorem unescapePath_star_slash (bs : List Byte) :
    unescapePath (star :: slash :: bs) = (unescapePath bs).map (slash :: ·) := by
  simp [unescapePath, show star ≠ dot by decide, show star ≠ slash by decide]

/-- Every escaped path is read, byte by byte, as the canonical one with the same escape (log 21). -/
theorem unescapePath_flatMap_escapeByte (upper : Bool) (rest : List Byte) :
    unescapePath (rest.flatMap (escapeByte upper)) = some (rest.map (canonicalByte upper)) := by
  induction rest with
  | nil => rfl
  | cons c rest ih =>
    have hhead := head?_flatMap_escapeByte_ne upper rest
    have hlow : ∀ b : Byte, b.toNat < 0x61 → b ≠ star → canonicalByte upper b = b := fun b hb hne => by
      rw [canonicalByte, if_neg hne, fold_of_lt hb]
    rw [List.flatMap_cons, List.map_cons]
    by_cases hd : c = dot
    · rw [hd, hlow dot (by decide) (by decide)]
      rw [escapeByte_dot, List.singleton_append, unescapePath_star hhead, ih]
      rfl
    · by_cases hs : c = slash
      · rw [hs, hlow slash (by decide) (by decide)]
        rw [escapeByte_slash, List.cons_append, List.singleton_append, unescapePath_star_slash, ih]
        rfl
      · rw [escapeByte_other hd hs, List.singleton_append, canonicalByte]
        by_cases ht : c = star
        · rw [if_pos ht, ht, fold_of_lt (by decide), unescapePath_star hhead, ih]
          rfl
        · rw [if_neg ht, unescapePath_cons, ih]
          · rfl
          all_goals rwa [Ne, fold_eq_iff (by decide)]

/-- The path read for a path: its leading byte as it stands, every other byte canonical (log 21). -/
def canonicalPath (upper : Bool) : List Byte → List Byte
  | [] => []
  | c :: rest => c :: rest.map (canonicalByte upper)

theorem encodePath_canonicalPath (upper : Bool) (p : List Byte) :
    encodePath (canonicalPath upper p) upper = encodePath p upper := by
  cases p with
  | nil => rfl
  | cons c rest =>
    simp only [canonicalPath, encodePath, List.flatMap_map, escapeByte_canonicalByte]

/-- A path that the decoder reads back is its own canonical path. -/
theorem canonicalPath_eq_self {upper : Bool} {p : List Byte} (h : ∀ c ∈ p.tail, c ≠ star ∧ fold c upper = c) :
    canonicalPath upper p = p := by
  cases p with
  | nil => rfl
  | cons c rest =>
    rw [canonicalPath, List.map_congr_left (g := id), List.map_id]
    intro b hb
    obtain ⟨hne, hfold⟩ := h b hb
    rw [canonicalByte, if_neg hne, hfold, id]

theorem pathOperand_pathPayload (f : Byte → List Byte → Instr) (d : Byte) (p : List Byte) (upper : Bool) :
    pathOperand f (pathPayload d p upper) = .ok (f d (canonicalPath upper p)) := by
  cases p with
  | nil => rfl
  | cons c rest =>
    rw [pathPayload, encodePath, pathOperand, unescapePath_flatMap_escapeByte]
    rfl

/-- The payload of a command decodes, under its opcode, to the command (30 R62 to R64, R69). -/
theorem decodePayload_payload {upper : Bool} {i : Instr} (hfit : i.fitsRow = true) (hback : i.readBack upper) :
    decodePayload i.opcode.toNat (i.payload upper) = .ok i := by
  cases i with
  | playByPath d p =>
    exact (pathOperand_pathPayload _ d p upper).trans (by rw [canonicalPath_eq_self hback])
  | interludeByPath d p =>
    exact (pathOperand_pathPayload _ d p upper).trans (by rw [canonicalPath_eq_self hback])
  | combinationPlay ts =>
    refine (if_pos ?_).trans (congrArg (fun q => Except.ok (Instr.combinationPlay q)) (pairTokens_tokenBytes ts))
    show (tokenBytes ts).length % 2 = 0
    rw [tokenBytes_length]
    omega
  | playByNumber n => exact congrArg (fun m => Except.ok (Instr.playByNumber m)) (join_hi_lo n)
  | select n => exact congrArg (fun m => Except.ok (Instr.select m)) (join_hi_lo n)
  | interludeByNumber d n => exact congrArg (fun m => Except.ok (Instr.interludeByNumber d m)) (join_hi_lo n)
  | setCycleTimesW2 n => exact congrArg (fun m => Except.ok (Instr.setCycleTimesW2 m)) (join_hi_lo n)
  | setCycleTimesW1 n =>
    have hn : n.toNat ≤ 255 := by simpa [Instr.fitsRow] using hfit
    have hz : zext16 (lo n) = n := by
      apply BitVec.eq_of_toNat_eq
      rw [zext16_toNat, lo_toNat]
      omega
    exact congrArg (fun m => Except.ok (Instr.setCycleTimesW1 m)) hz
  | _ => rfl

/-- Settles O42: the words are a frame body, whose payload decodes to the command. -/
theorem wireDecodingInvertsWireEncoding : Obligations.WireDecodingInvertsWireEncoding := by
  unfold Obligations.WireDecodingInvertsWireEncoding
  intro upper i w rest hw hback
  obtain ⟨hfit, hlen, rfl⟩ := encode_eq_some.1 hw
  rw [decode_frameBody hlen, decodePayload_payload hfit hback]
  rfl

/-- A path command whose opcode reads its payload as `f` decodes to the command on the canonical path, which has the
same frame. -/
theorem decode_path_frame {upper : Bool} {f : Byte → List Byte → Instr} {op d : Byte} {p w : List Byte}
    (hop : ∀ q, (f d q).opcode = op) (hpay : ∀ q, (f d q).payload upper = pathPayload d q upper)
    (hfit : ∀ q, (f d q).fitsRow = true) (hdec : ∀ b, decodePayload op.toNat b = pathOperand f b)
    (rest : List Byte) (hw : encode upper (f d p) = some w) :
    ∃ q, decode (w ++ rest) = .ok (f d q, rest) ∧ encode upper (f d q) = some w := by
  have hsame : pathPayload d (canonicalPath upper p) upper = pathPayload d p upper := by
    rw [pathPayload, encodePath_canonicalPath, pathPayload]
  rw [encode_eq_some, hop, hpay] at hw
  obtain ⟨-, hlen, rfl⟩ := hw
  refine ⟨canonicalPath upper p, ?_, ?_⟩
  · rw [decode_frameBody hlen, hdec, pathOperand_pathPayload]
    rfl
  · rw [encode_eq_some, hop, hpay, hsame]
    exact ⟨hfit _, hlen, rfl⟩

/-- Settles O43: the canonical path has the very same frame, for both opcodes. -/
theorem pathFramesDecodeToTheirFrame : Obligations.PathFramesDecodeToTheirFrame := by
  unfold Obligations.PathFramesDecodeToTheirFrame
  intro upper d p w rest
  exact ⟨decode_path_frame (f := .playByPath) (fun _ => rfl) (fun _ => rfl) (fun _ => rfl) (fun _ => rfl) rest,
    decode_path_frame (f := .interludeByPath) (fun _ => rfl) (fun _ => rfl) (fun _ => rfl) (fun _ => rfl) rest⟩

/-- What decodes is the body of a frame, read by its opcode, with the bytes left behind it. -/
theorem decode_eq_ok {bs rest : List Byte} {i : Instr} (h : decode bs = .ok (i, rest)) :
    ∃ op p, p.length ≤ 255 ∧ bs = frameBody op p ++ rest ∧ decodePayload op.toNat p = .ok i := by
  unfold decode at h
  split at h
  · rename_i hd op len tl
    split at h
    · cases h
    · rename_i hhd
      split at h
      · cases h
      · rename_i hlen
        split at h
        · cases h
        · rename_i j hj
          cases h
          have hl := List.length_take_of_le (Nat.le_of_not_lt hlen)
          refine ⟨op, tl.take len.toNat, by rw [hl]; omega, ?_, hj⟩
          rw [frameBody, hl, BitVec.ofNat_toNat, BitVec.setWidth_eq, ← not_ne_iff.1 hhd]
          simp only [List.cons_append, List.take_append_drop]
  · cases h

/-- Settles O44: the bytes after the words are the checksum byte and what follows, so the test is of the words. -/
theorem frameDecodingTestsTheChecksum : Obligations.FrameDecodingTestsTheChecksum := by
  unfold Obligations.FrameDecodingTestsTheChecksum
  intro i w rest c hw
  obtain ⟨op, p, hp, rfl, hdec⟩ := decode_eq_ok hw
  have hframe : decode (frameBody op p ++ [] ++ c :: rest) = .ok (i, c :: rest) := by
    rw [List.append_nil, decode_frameBody hp, hdec]
    rfl
  rw [decodeFrame, hframe]
  simp only [List.length_append, Nat.add_sub_cancel]
  rw [← List.length_append, List.take_left]

/-! ### The opcode table -/

/-- The rows of a list of which any two differ in a bit that both masks test cover a frame at most once. -/
theorem length_filter_covers_le_one {rows : List OpcodeRow}
    (h : rows.Pairwise fun r q => r.pattern &&& q.mask ≠ q.pattern &&& r.mask) (bs : List Byte) :
    (rows.filter fun r => r.covers bs).length ≤ 1 := by
  induction rows with
  | nil => exact Nat.zero_le 1
  | cons r rows ih =>
    obtain ⟨hr, hrows⟩ := List.pairwise_cons.1 h
    by_cases hc : r.covers bs = true
    · have hnone : (rows.filter fun q => q.covers bs) = [] := by
        refine List.filter_eq_nil_iff.2 fun q hq hcq => hr q hq ?_
        rw [← beq_iff_eq.1 hc, ← beq_iff_eq.1 hcq, Nat.and_right_comm]
      rw [List.filter_cons_of_pos (p := fun r : OpcodeRow => r.covers bs) hc, hnone]
      exact Nat.le_refl 1
    · rw [List.filter_cons_of_neg (p := fun r : OpcodeRow => r.covers bs) hc]
      exact ih hrows

/-- Settles O45: any two rows differ in a bit that both test. -/
theorem tableRowsAreDisjoint : Obligations.TableRowsAreDisjoint := by
  unfold Obligations.TableRowsAreDisjoint
  exact length_filter_covers_le_one (by decide)

/-- A row of the table covers the frame of an opcode and a payload length by its first three bytes (30 R78). -/
theorem row_covers_frameBody (k : Fin 29) (op : Byte) (len : Nat) {mnemonic : String} {p : List Byte}
    (hm : opcodeTable[k].mnemonic = mnemonic) (hlen : p.length = len)
    (hrow : (0xAA <<< 16 ||| op.toNat <<< 8 ||| (BitVec.ofNat 8 len).toNat) &&& opcodeTable[k].mask
      = opcodeTable[k].pattern) :
    ∃ r ∈ opcodeTable, r.mnemonic = mnemonic ∧ r.covers (frameBody op p) = true := by
  subst hlen
  exact ⟨opcodeTable[k], List.getElem_mem _, hm, beq_iff_eq.2 hrow⟩

/-- The bits of the length byte lie outside a mask that tests header and opcode alone (30 R78). -/
theorem byte_and_upper_mask (b : Byte) : b.toNat &&& 0xFFFF00 = 0 := by
  apply Nat.eq_of_testBit_eq
  intro j
  rw [show 0xFFFF00 = 0xFFFF <<< 8 from rfl, Nat.testBit_and, Nat.testBit_shiftLeft, Nat.zero_testBit]
  by_cases hj : 8 ≤ j
  · rw [Nat.testBit_lt_two_pow (b.isLt.trans_le (Nat.pow_le_pow_right (by decide) hj)), Bool.false_and]
  · simp [hj]

/-- A path row leaves the length byte free (30 R78). -/
theorem or_byte_and_path_mask (n : Nat) (b : Byte) : (n ||| b.toNat) &&& 0xFFFF00 = n &&& 0xFFFF00 := by
  rw [Nat.and_or_distrib_right, byte_and_upper_mask, Nat.or_zero]

/-- The row of COMBINATION_PLAY tests of the length byte that it is even (30 R78). -/
theorem or_byte_and_tokens_mask (n : Nat) {b : Byte} (h : b.toNat % 2 = 0) :
    (n ||| b.toNat) &&& 0xFFFF01 = n &&& 0xFFFF01 := by
  have hb : b.toNat &&& 0xFFFF01 = 0 := by
    rw [show 0xFFFF01 = 0xFFFF00 ||| 1 from rfl, Nat.and_or_distrib_left, byte_and_upper_mask, Nat.and_one_is_mod, h]
    rfl
  rw [Nat.and_or_distrib_right, hb, Nat.or_zero]

/-- The frame of a command belongs to a row with the command's mnemonic, whatever its operands. -/
theorem exists_row_covers (upper : Bool) (i : Instr) :
    ∃ r ∈ opcodeTable, r.mnemonic = i.mnemonic ∧ r.covers (frameBody i.opcode (i.payload upper)) = true := by
  cases i with
  | queryPlayState => exact row_covers_frameBody 0 0x01#8 0 rfl rfl (by decide)
  | play => exact row_covers_frameBody 1 0x02#8 0 rfl rfl (by decide)
  | pause => exact row_covers_frameBody 2 0x03#8 0 rfl rfl (by decide)
  | stop => exact row_covers_frameBody 3 0x04#8 0 rfl rfl (by decide)
  | previous => exact row_covers_frameBody 4 0x05#8 0 rfl rfl (by decide)
  | next => exact row_covers_frameBody 5 0x06#8 0 rfl rfl (by decide)
  | playByNumber n => exact row_covers_frameBody 6 0x07#8 2 rfl rfl (by decide)
  | playByPath d p =>
    exact row_covers_frameBody 7 0x08#8 _ rfl rfl ((or_byte_and_path_mask _ _).trans (by decide))
  | queryPlayingDevice => exact row_covers_frameBody 8 0x0A#8 0 rfl rfl (by decide)
  | setDevice d => exact row_covers_frameBody 9 0x0B#8 1 rfl rfl (by decide)
  | interludeByNumber d n => exact row_covers_frameBody 10 0x0B#8 3 rfl rfl (by decide)
  | querySoundCount => exact row_covers_frameBody 11 0x0C#8 0 rfl rfl (by decide)
  | queryPlayingSound => exact row_covers_frameBody 12 0x0D#8 0 rfl rfl (by decide)
  | previousDirLast => exact row_covers_frameBody 13 0x0E#8 0 rfl rfl (by decide)
  | previousDirFirst => exact row_covers_frameBody 14 0x0F#8 0 rfl rfl (by decide)
  | stopInterlude => exact row_covers_frameBody 15 0x10#8 0 rfl rfl (by decide)
  | queryDirFirst => exact row_covers_frameBody 16 0x11#8 0 rfl rfl (by decide)
  | queryDirCount => exact row_covers_frameBody 17 0x12#8 0 rfl rfl (by decide)
  | setVolume v => exact row_covers_frameBody 18 0x13#8 1 rfl rfl (by decide)
  | volumeUp => exact row_covers_frameBody 19 0x14#8 0 rfl rfl (by decide)
  | volumeDown => exact row_covers_frameBody 20 0x15#8 0 rfl rfl (by decide)
  | interludeByPath d p =>
    exact row_covers_frameBody 21 0x17#8 _ rfl rfl ((or_byte_and_path_mask _ _).trans (by decide))
  | setCycleMode m => exact row_covers_frameBody 22 0x18#8 1 rfl rfl (by decide)
  | setCycleTimesW1 n => exact row_covers_frameBody 23 0x19#8 1 rfl rfl (by decide)
  | setCycleTimesW2 n => exact row_covers_frameBody 24 0x19#8 2 rfl rfl (by decide)
  | setEq e => exact row_covers_frameBody 25 0x1A#8 1 rfl rfl (by decide)
  | combinationPlay ts =>
    refine row_covers_frameBody 26 0x1B#8 _ rfl (tokenBytes_length ts)
      ((or_byte_and_tokens_mask _ ?_).trans (by decide))
    rw [BitVec.toNat_ofNat]
    omega
  | endCombinationPlay => exact row_covers_frameBody 27 0x1C#8 0 rfl rfl (by decide)
  | select n => exact row_covers_frameBody 28 0x1F#8 2 rfl rfl (by decide)

/-- Settles O46: the words are the body of the command's frame. -/
theorem wordsBelongToTheRowOfTheirMnemonic : Obligations.WordsBelongToTheRowOfTheirMnemonic := by
  unfold Obligations.WordsBelongToTheRowOfTheirMnemonic
  intro upper i w hw
  obtain ⟨-, -, rfl⟩ := encode_eq_some.1 hw
  exact exists_row_covers upper i

/-- Settles O47: the decoder runs on the words. -/
theorem sampleWordsDecode : Obligations.SampleWordsDecode := by
  unfold Obligations.SampleWordsDecode
  exact ⟨rfl, rfl, rfl, rfl, rfl⟩

/-- An opcode outside the table has no command (30 R72). -/
theorem decodePayload_unassigned {op : Nat}
    (h : op = 0x00 ∨ op = 0x09 ∨ op = 0x16 ∨ op = 0x1D ∨ op = 0x1E ∨ 0x20 ≤ op)
    (p : List Byte) : decodePayload op p = .error .unassignedOpcode := by
  unfold decodePayload
  split
  any_goals omega
  rfl

theorem decodePort_reserved {c : PortCmd} (h : 28 ≤ c.opsel.toNat) (w : CycleWidth) :
    decodePort w c = .error .reservedOpsel := by
  unfold decodePort
  split
  any_goals omega
  rfl

/-- Settles O48: neither decoder knows the encoding. -/
theorem reservedEncodingsAreRefused : Obligations.ReservedEncodingsAreRefused := by
  unfold Obligations.ReservedEncodingsAreRefused
  constructor
  · intro op len rest hlen hop
    rw [decode, if_neg (by decide), if_neg (Nat.not_lt.2 hlen), decodePayload_unassigned hop]
  · intro s c rest hb hh hop
    rw [step_issue hh hb, runPort, decodePort_reserved hop]

/-! ### What every command does -/

/-- The payload that an instance with these straps sends for the command (30 R62, R71). -/
def sentPayload (i : Instr) (cfg : Straps) : List Byte := (i.rowAt cfg.cycleW).payload cfg.pathUpper

/-- The frame of the command (40 R82). -/
def sentFrame (i : Instr) (cfg : Straps) : List Byte := frameOf i.opcode (sentPayload i cfg)

/-- The state in which the command starts its write phase: a path stands in PBUF (43 R125), and of the tokens S keeps
those that the transport will not accept (log 24). -/
def writeStart (i : Instr) (s : State) : State :=
  match i with
  | .playByPath d p | .interludeByPath d p => pathAssembled d p s
  | .combinationPlay ts =>
    { accept s with stream := (tokenBytes ts).drop (acceptedCount (2 * ts.length + 4) s.txRoom - 3) }
  | _ => accept s

/-- What follows the command's write phase: the read of a query, else the end (40 R85). -/
def afterWrite (i : Instr) (par : Params) : State → State :=
  if i.isQuery then readPhase i.queryClass (i.sentinel par) else finish 0x0000#16

/-- The state that an admitted command answers. -/
def outcome (i : Instr) (s : State) : State :=
  if i.isNoOp then silentNoOp s
  else writePhase (sentFrame i s.cfg) (afterWrite i s.par) (writeStart i s)

theorem sentFrame_length (i : Instr) (cfg : Straps) : (sentFrame i cfg).length = (sentPayload i cfg).length + 4 :=
  frameOf_length _ _

theorem sentPayload_setCycleTimesW1 (n : Half) (cfg : Straps) :
    sentPayload (.setCycleTimesW1 n) cfg = cyclePayload cfg.cycleW n := by
  obtain ⟨upper, w⟩ := cfg
  cases w <;> rfl

theorem sentPayload_setCycleTimesW2 (n : Half) (cfg : Straps) :
    sentPayload (.setCycleTimesW2 n) cfg = cyclePayload cfg.cycleW n := by
  obtain ⟨upper, w⟩ := cfg
  cases w <;> rfl

/-- A path is admitted exactly if it is empty, or begins with `'/'` and fits the length byte (43 R123, R124). -/
theorem pathAdmission_cons_eq_none {d c : Byte} {rest : List Byte} {upper : Bool} :
    pathAdmission d (c :: rest) upper = none ↔
      c = slash ∧ (pathPayload d (c :: rest) upper).length ≤ 255 := by
  simp only [pathAdmission, Config.payloadMax]
  split <;> simp_all

theorem admission_combinationPlay_eq_none {cfg : Straps} {ts : List Token} :
    admission cfg (.combinationPlay ts) = none ↔ ts.length ≤ 127 :=
  ite_eq_right_iff.trans (by simp [Config.tokensMax])

/-- A payload of an admitted command fits the length byte (30 R61). -/
theorem sentPayload_length_le {cfg : Straps} {i : Instr} (h : admission cfg i = none) :
    (sentPayload i cfg).length ≤ 255 := by
  have hpath : ∀ d p, pathAdmission d p cfg.pathUpper = none → (pathPayload d p cfg.pathUpper).length ≤ 255 := by
    intro d p hp
    cases p with
    | nil => exact (by decide : 1 ≤ 255)
    | cons c rest => exact (pathAdmission_cons_eq_none.1 hp).2
  cases i with
  | playByPath d p => exact hpath d p h
  | interludeByPath d p => exact hpath d p h
  | combinationPlay ts =>
    have hts := admission_combinationPlay_eq_none.1 h
    show (tokenBytes ts).length ≤ 255
    rw [tokenBytes_length]
    omega
  | setCycleTimesW1 n => rw [sentPayload_setCycleTimesW1]; cases cfg.cycleW <;> simp [cyclePayload]
  | setCycleTimesW2 n => rw [sentPayload_setCycleTimesW2]; cases cfg.cycleW <;> simp [cyclePayload]
  | _ => simp [sentPayload, Instr.rowAt, Instr.payload, numPayload, devNumPayload]

theorem opcode_rowAt (w : CycleWidth) (i : Instr) : (i.rowAt w).opcode = i.opcode := by
  cases i with
  | setCycleTimesW1 n | setCycleTimesW2 n => cases w <;> rfl
  | _ => rfl

/-- The words of an admitted command's row are the body of the frame it sends (30 R69, R71). -/
theorem encode_rowAt {cfg : Straps} {i : Instr} (h : admission cfg i = none) :
    encode cfg.pathUpper (i.rowAt cfg.cycleW) = some (frameBody i.opcode (sentPayload i cfg)) := by
  have hfit : (i.rowAt cfg.cycleW).fitsRow = true := by
    cases i with
    | setCycleTimesW1 n | setCycleTimesW2 n =>
      simp only [admission, ite_eq_right_iff, reduceCtorEq, imp_false, not_and] at h
      cases hw : cfg.cycleW with
      | one => simp only [Instr.rowAt, Instr.fitsRow, decide_eq_true_eq]; exact Nat.not_lt.1 fun hn => h hn hw
      | two => rfl
    | _ => rfl
  rw [encode_eq_some, opcode_rowAt]
  exact ⟨hfit, sentPayload_length_le h, rfl⟩

/-- The write phase starts from the accepted command's state: only S and the payload buffer can differ from it. -/
theorem writeStart_eq (i : Instr) (s : State) :
    ∃ st pb pl, writeStart i s = { accept s with stream := st, pbuf := pb, plen := pl } := by
  cases i with
  | _ => exact ⟨_, _, _, rfl⟩

/-! ### The inversion of `exec` -/

/-- SET_CYCLE_TIMES inside its domain, by either of its rows (42 R110, log 1). -/
theorem setCycleTimes_next {n : Half} {s : State} (h : admission s.cfg (.setCycleTimesW1 n) = none) :
    setCycleTimes n s =
      .next (writePhase (frameOf 0x19#8 (cyclePayload s.cfg.cycleW n)) (finish 0x0000#16) (accept s)) := by
  have hlen : (cyclePayload s.cfg.cycleW n).length ≤ 255 := by
    cases s.cfg.cycleW <;> simp [cyclePayload]
  have hn : ¬ (255 < n.toNat ∧ s.cfg.cycleW = .one) := fun hc => by
    rw [admission, if_pos hc] at h
    cases h
  rw [setCycleTimes, if_neg hn, fireAndForget_next hlen]

theorem pathCommand_cons_next {op d c : Byte} {rest : List Byte} {s : State}
    (h : pathAdmission d (c :: rest) s.cfg.pathUpper = none) :
    pathCommand op d (c :: rest) s =
      .next (writePhase (frameOf op (pathPayload d (c :: rest) s.cfg.pathUpper)) (finish 0x0000#16)
        (pathAssembled d (c :: rest) s)) := by
  rw [pathCommand_eq, h]

/-- A command inside its admitted domain has a next state (00 R11, 40 R85). -/
theorem exec_of_admitted {i : Instr} {s : State} (h : admission s.cfg i = none) :
    exec i s = .next (outcome i s) := by
  cases i with
  | playByPath d p =>
    cases p with
    | nil => exact pathCommand_nil 0x08#8 d s
    | cons c rest => exact pathCommand_cons_next h
  | interludeByPath d p =>
    cases p with
    | nil => exact pathCommand_nil 0x17#8 d s
    | cons c rest => exact pathCommand_cons_next h
  | combinationPlay ts =>
    cases ts with
    | nil => exact execCombinationPlay_nil s
    | cons t ts =>
      exact execCombinationPlay_next (by nofun) (admission_combinationPlay_eq_none.1 h) s
  | setCycleTimesW1 n =>
    rw [exec_setCycleTimesW1, setCycleTimes_next h, ← sentPayload_setCycleTimesW1]
    rfl
  | setCycleTimesW2 n =>
    rw [exec_setCycleTimesW2, setCycleTimes_next h, ← sentPayload_setCycleTimesW2]
    rfl
  | queryPlayState | queryPlayingDevice | querySoundCount | queryPlayingSound | queryDirFirst | queryDirCount =>
    exact query_next _ _ _ s
  | _ => exact fireAndForget_next (sentPayload_length_le h) s

/-- A command outside its admitted domain is refused (00 R11). -/
theorem exec_of_refused {i : Instr} {s : State} {r : Refusal} (h : admission s.cfg i = some r) :
    exec i s = .refused r := by
  have hpath : ∀ op d p, pathAdmission d p s.cfg.pathUpper = some r → pathCommand op d p s = .refused r :=
    fun op d p hp => by rw [pathCommand_eq, hp]
  have hcycle : ∀ n, admission s.cfg (.setCycleTimesW1 n) = some r → setCycleTimes n s = .refused r := fun n hn => by
    rw [admission] at hn
    split at hn
    · rename_i hc
      cases hn
      rw [setCycleTimes, if_pos hc]
    · cases hn
  cases i with
  | playByPath d p => exact hpath 0x08#8 d p h
  | interludeByPath d p => exact hpath 0x17#8 d p h
  | setCycleTimesW1 n => exact hcycle n h
  | setCycleTimesW2 n => exact hcycle n h
  | combinationPlay ts =>
    cases ts with
    | nil => cases h
    | cons t ts =>
      simp only [admission] at h
      split at h
      · rename_i hc
        cases h
        rw [exec_combinationPlay, execCombinationPlay, if_pos hc]
      · cases h
  | _ => cases h

theorem exec_eq_next {i : Instr} {s t : State} :
    exec i s = .next t ↔ admission s.cfg i = none ∧ outcome i s = t := by
  cases h : admission s.cfg i with
  | none => simp [exec_of_admitted h]
  | some r => simp [exec_of_refused h]

/-- The ways a command that goes on can end: silently (60 R168); its write waits for ever (70 R192 (d)); its frame is
handed over and it is no query; or it is one and its read waits for ever (70 R192 (b)) or is answered (45 R151). -/
inductive Ends (i : Instr) (s : State) : State → Prop where
  | silent (hi : i.isNoOp = true) : Ends i s (silentNoOp s)
  | stalled {r : Nat} (hi : i.isNoOp = false) (hroom : s.txRoom = some r) (hr : r < (sentPayload i s.cfg).length + 4) :
      Ends i s (stalledState (sentFrame i s.cfg) r (writeStart i s))
  | fired (hi : i.isNoOp = false) (hq : i.isQuery = false)
      (hw : writeReturns ((sentPayload i s.cfg).length + 4) s = true) :
      Ends i s (finish 0x0000#16 (sentState i.opcode (sentPayload i s.cfg) (writeStart i s)))
  | unanswered (hq : i.isQuery = true) (hw : writeReturns 4 s = true)
      (ha : nextAnswer (i.queryClass.readLength s.par) s = .never) :
      Ends i s { sentState i.opcode [] (accept s) with phase := .read }
  | answered {bs : List Byte} (hq : i.isQuery = true) (hw : writeReturns 4 s = true)
      (ha : nextAnswer (i.queryClass.readLength s.par) s = .bytes bs) :
      Ends i s (judgeResponse i.queryClass (i.queryClass.readLength s.par) (i.sentinel s.par)
        (bs.take (i.queryClass.readLength s.par))
        (answeredState i.opcode (i.queryClass.readLength s.par) bs s))

theorem writeStart_txRoom (i : Instr) (s : State) : (writeStart i s).txRoom = s.txRoom := by
  obtain ⟨st, pb, pl, h⟩ := writeStart_eq i s
  rw [h, accept_txRoom]

/-- A query has no payload and starts its write phase where it was accepted (30 R69). -/
theorem isQuery_facts {i : Instr} (hq : i.isQuery = true) (s : State) :
    i.isNoOp = false ∧ sentPayload i s.cfg = [] ∧ writeStart i s = accept s := by
  cases i with
  | queryPlayState | queryPlayingDevice | querySoundCount | queryPlayingSound | queryDirFirst | queryDirCount =>
    exact ⟨rfl, rfl, rfl⟩
  | _ => cases hq

/-- Every command that goes on ends in one of these ways. -/
theorem exec_ends {i : Instr} {s t : State} (h : exec i s = .next t) : Ends i s t := by
  obtain ⟨-, rfl⟩ := exec_eq_next.1 h
  unfold outcome
  cases hi : i.isNoOp with
  | true => exact .silent hi
  | false =>
    rw [if_neg Bool.false_ne_true, sentFrame]
    have hroom := writeStart_txRoom i s
    rcases writePhase_cases i.opcode (sentPayload i s.cfg) (afterWrite i s.par) (writeStart i s) with
      ⟨hw, e⟩ | ⟨r, hr, hlt, e⟩
    · have hw' : writeReturns ((sentPayload i s.cfg).length + 4) s = true := by rwa [writeReturns, ← hroom]
      rw [e, afterWrite]
      cases hq : i.isQuery with
      | false => exact .fired hi hq hw'
      | true =>
        obtain ⟨-, hp, hstart⟩ := isQuery_facts hq s
        rw [hp] at hw' ⊢
        rw [hstart, if_pos rfl]
        cases ha : nextAnswer (i.queryClass.readLength s.par) s with
        | never =>
          rw [readPhase_never (s := sentState i.opcode [] (accept s)) ha]
          exact .unanswered hq hw' ha
        | bytes bs =>
          rw [readPhase_bytes (s := sentState i.opcode [] (accept s)) ha]
          exact .answered hq hw' ha
    · rw [e]
      exact .stalled hi (hroom ▸ hr) hlt

/-- The state that a query's judged answer leaves. -/
theorem judged_eq (i : Instr) (s : State) (bs : List Byte) :
    ∃ r e, judgeResponse i.queryClass (i.queryClass.readLength s.par) (i.sentinel s.par)
        (bs.take (i.queryClass.readLength s.par))
        (answeredState i.opcode (i.queryClass.readLength s.par) bs s)
      = { answeredState i.opcode (i.queryClass.readLength s.par) bs s with
          result := r, err := e, phase := .idle, busy := false } :=
  judgeResponse_eq ..

/-! ### What every command keeps, sends and reads -/

/-- Settles O32: a command runs, or is refused, by its admission. -/
theorem commandsRunExactlyInTheirDomain : Obligations.CommandsRunExactlyInTheirDomain := by
  unfold Obligations.CommandsRunExactlyInTheirDomain
  exact fun i s => ⟨fun h => ⟨outcome i s, exec_of_admitted h⟩, fun r h => exec_of_refused h⟩

/-- The start of the write phase keeps what every command keeps, and has read nothing. -/
theorem writeStart_kept (i : Instr) (s : State) : Kept s (writeStart i s) ∧ NoRead s (writeStart i s) := by
  obtain ⟨st, pb, pl, h⟩ := writeStart_eq i s
  rw [h]
  exact ⟨⟨rfl, rfl, rfl, rfl, rfl, rfl, rfl, rfl⟩, ⟨rfl, rfl, rfl⟩⟩

theorem silentNoOp_kept (s : State) : Kept s (silentNoOp s) := (silentNoOp_fired s).1.kept

theorem ends_kept {i : Instr} {s t : State} (h : Ends i s t) : Kept s t := by
  have hstart := (writeStart_kept i s).1
  cases h with
  | silent => exact silentNoOp_kept s
  | stalled => exact ⟨hstart.1, hstart.2, hstart.3, hstart.4, hstart.5, hstart.6, hstart.7, hstart.8⟩
  | fired => exact ⟨hstart.1, hstart.2, hstart.3, hstart.4, hstart.5, hstart.6, hstart.7, hstart.8⟩
  | unanswered => exact ⟨rfl, rfl, rfl, rfl, rfl, rfl, rfl, rfl⟩
  | @answered bs =>
    obtain ⟨r, e, hj⟩ := judged_eq i s bs
    rw [hj]
    exact ⟨rfl, rfl, rfl, rfl, rfl, rfl, rfl, rfl⟩

/-- Settles O33: each way of ending keeps the operands. -/
theorem commandsKeepTheirOperands : Obligations.CommandsKeepTheirOperands := by
  unfold Obligations.CommandsKeepTheirOperands
  exact fun i s t h => ends_kept (exec_ends h)

theorem writeStart_tx (i : Instr) (s : State) : (writeStart i s).tx = s.tx := by
  obtain ⟨st, pb, pl, h⟩ := writeStart_eq i s
  rw [h, accept_tx]

/-- What a command has handed over when it ends or waits, and the transport's room then: of its frame as much as the
transport accepts, and of a silent no-op nothing (20 R41, log 25). -/
theorem ends_sent {i : Instr} {s t : State} (h : Ends i s t) :
    (i.isNoOp = true ∧ t.tx = s.tx ∧ t.txRoom = s.txRoom) ∨
    (i.isNoOp = false ∧
      t.tx = s.tx ++ (sentFrame i s.cfg).take (acceptedCount (sentFrame i s.cfg).length s.txRoom) ∧
      t.txRoom = s.txRoom.map (· - (sentFrame i s.cfg).length)) := by
  have hlen := sentFrame_length i s.cfg
  have hwhole (hw : writeReturns ((sentPayload i s.cfg).length + 4) s = true) :
      (sentFrame i s.cfg).take (acceptedCount (sentFrame i s.cfg).length s.txRoom) = sentFrame i s.cfg := by
    rw [hlen, acceptedCount_of_returns hw, ← hlen, List.take_length]
  cases h with
  | silent hi => exact .inl ⟨hi, rfl, rfl⟩
  | @stalled r hi hroom hr =>
    refine .inr ⟨hi, ?_, ?_⟩
    · rw [hroom, acceptedCount_some, Nat.min_eq_right (by omega)]
      exact congrArg (· ++ _) (writeStart_tx i s)
    · rw [hroom, Option.map_some, Nat.sub_eq_zero_of_le (by omega)]
      rfl
  | fired hi hq hw =>
    refine .inr ⟨hi, ?_, ?_⟩
    · rw [hwhole hw]
      exact congrArg (· ++ _) (writeStart_tx i s)
    · rw [hlen, ← writeStart_txRoom i s]
      rfl
  | unanswered hq hw =>
    obtain ⟨hi, hp, -⟩ := isQuery_facts hq s
    rw [hwhole (by rw [hp]; exact hw), hlen, sentFrame, hp]
    exact .inr ⟨hi, rfl, rfl⟩
  | @answered bs hq hw =>
    obtain ⟨hi, hp, -⟩ := isQuery_facts hq s
    obtain ⟨r, e, hj⟩ := judged_eq i s bs
    rw [hj, hwhole (by rw [hp]; exact hw), hlen, sentFrame, hp]
    exact .inr ⟨hi, rfl, rfl⟩

/-- Settles O34: the frame is the words of the command's row with their checksum. -/
theorem commandsSendTheWordsOfTheirRow : Obligations.CommandsSendTheWordsOfTheirRow := by
  unfold Obligations.CommandsSendTheWordsOfTheirRow
  intro i s t h
  refine (ends_sent (exec_ends h)).imp (fun ⟨hi, htx, _⟩ => ⟨hi, htx⟩) fun ⟨hi, htx, _⟩ => ?_
  have hlen : (frameBody i.opcode (sentPayload i s.cfg)).length + 1 = (sentFrame i s.cfg).length := by
    rw [frameBody_length, sentFrame_length]
  refine ⟨hi, _, encode_rowAt (exec_eq_next.1 h).1, fun hw => ?_, ?_⟩
  · rw [hlen] at hw
    rw [htx, acceptedCount_of_returns hw, List.take_length]
    rfl
  · rw [hlen]
    exact htx

/-- Settles O35: the room goes down by the length of what was accepted, also where that is less than the frame. -/
theorem commandsUseTheTransportsRoom : Obligations.CommandsUseTheTransportsRoom := by
  unfold Obligations.CommandsUseTheTransportsRoom
  intro i s t h
  rcases ends_sent (exec_ends h) with ⟨-, htx, hroom⟩ | ⟨-, htx, hroom⟩
  · refine ⟨[], by rw [htx, List.append_nil], ?_⟩
    rw [hroom]
    cases s.txRoom <;> rfl
  · refine ⟨_, htx, ?_⟩
    rw [hroom, List.length_take]
    cases s.txRoom with
    | none => rfl
    | some r => simp only [Option.map_some, acceptedCount_some]; congr 1; omega

/-- A command reads nothing, or it is a query and makes one read, which is answered (20 R42, 40 R86). -/
theorem ends_read {i : Instr} {s t : State} (h : Ends i s t) :
    NoRead s t ∨ (i.isQuery = true ∧ ∃ bs : List Byte,
      t.rx = s.rx ++ [{ want := i.queryClass.readLength s.par, got := bs.take (i.queryClass.readLength s.par) }]) := by
  have hstart := (writeStart_kept i s).2
  cases h with
  | silent => exact .inl (silentNoOp_fired s).1.noRead
  | stalled => exact .inl ⟨hstart.1, hstart.2, hstart.3⟩
  | fired => exact .inl ⟨hstart.1, hstart.2, hstart.3⟩
  | unanswered => exact .inl ⟨rfl, rfl, rfl⟩
  | @answered bs hq =>
    obtain ⟨r, e, hj⟩ := judged_eq i s bs
    rw [hj]
    exact .inr ⟨hq, bs, rfl⟩

/-- Settles O36: the one read is a query's, cut at the bytes it asks for. -/
theorem onlyQueriesReadAndOnlyOnce : Obligations.OnlyQueriesReadAndOnlyOnce := by
  unfold Obligations.OnlyQueriesReadAndOnlyOnce
  intro i s t h
  rcases ends_read (exec_ends h) with hno | ⟨hq, bs, hrx⟩
  · exact ⟨fun _ => hno, .inl hno.rx⟩
  · exact ⟨fun hf => absurd (hq.symm.trans hf) (by decide), .inr ⟨_, List.length_take_le _ _, hrx⟩⟩

/-- Settles O37: a command that is no query ends by `finish`, or waits in its write with RESULT and ERR untouched. -/
theorem onlyQueriesRaiseErrors : Obligations.OnlyQueriesRaiseErrors := by
  unfold Obligations.OnlyQueriesRaiseErrors
  intro i s t h hq
  obtain ⟨st, pb, pl, hstart⟩ := writeStart_eq i s
  cases exec_ends h with
  | silent => exact ⟨fun _ => ⟨rfl, rfl⟩, nofun⟩
  | stalled => rw [hstart]; exact ⟨nofun, fun _ => ⟨rfl, rfl⟩⟩
  | fired => exact ⟨fun _ => ⟨rfl, rfl⟩, nofun⟩
  | unanswered hq' => exact absurd (hq'.symm.trans hq) (by decide)
  | answered hq' => exact absurd (hq'.symm.trans hq) (by decide)

/-- Settles O39: with a write that returns and a read that is answered only the ways that end are left. -/
theorem commandsEndWhenTheReadReturns : Obligations.CommandsEndWhenTheReadReturns := by
  unfold Obligations.CommandsEndWhenTheReadReturns
  intro i s t h hwrite hread
  cases exec_ends h with
  | silent => exact ⟨rfl, rfl⟩
  | @stalled r hi hroom hr =>
    have hw := hwrite hi _ (encode_rowAt (exec_eq_next.1 h).1)
    rw [frameBody_length, writeReturns, hroom, decide_eq_true_eq] at hw
    omega
  | fired => exact ⟨rfl, rfl⟩
  | unanswered hq _ ha => exact absurd ha (hread hq)
  | @answered bs =>
    obtain ⟨r, e, hj⟩ := judged_eq i s bs
    rw [hj]
    exact ⟨rfl, rfl⟩

/-- Settles O40: of the ways to end only the one with a frame sent hands over bytes without being a query, and it
leaves the registers as the write phase does. -/
theorem transientsAfterAFireAndForgetCommand : Obligations.TransientsAfterAFireAndForgetCommand := by
  unfold Obligations.TransientsAfterAFireAndForgetCommand
  intro i s t f h hbusy hq hne htx
  cases exec_ends h with
  | silent => exact absurd (List.append_right_eq_self.1 htx.symm) hne
  | stalled =>
    obtain ⟨st, pb, pl, hstart⟩ := writeStart_eq i s
    rw [hstart] at hbusy
    cases hbusy
  | fired =>
    have hf : f = sentFrame i s.cfg := by
      refine (List.append_cancel_left (as := s.tx) ?_).symm
      rw [← htx, ← writeStart_tx i s]
      rfl
    have hle := sentPayload_length_le (exec_eq_next.1 h).1
    subst hf
    refine ⟨?_, List.getLast?_concat, ?_, ?_, fun hpath => ?_⟩
    · rw [sentFrame_length]
      show (BitVec.ofNat 9 (3 + (sentPayload i s.cfg).length)).toNat = _
      rw [BitVec.toNat_ofNat]
      omega
    · obtain ⟨st, pb, pl, hstart⟩ := writeStart_eq i s
      rw [hstart]
      rfl
    · obtain ⟨st, pb, pl, hstart⟩ := writeStart_eq i s
      rw [hstart]
      rfl
    · cases i with
      | playByPath d p => exact absurd rfl (hpath d p).1
      | interludeByPath d p => exact absurd rfl (hpath d p).2
      | _ => exact ⟨rfl, rfl⟩
  | unanswered hq' => exact absurd (hq'.symm.trans hq) (by decide)
  | answered hq' => exact absurd (hq'.symm.trans hq) (by decide)

/-! ### Steps -/

/-- Settles O8: reset is refused by name while BUSY = 1. -/
theorem resetWhileBusyIsRefused : Obligations.ResetWhileBusyIsRefused := by
  unfold Obligations.ResetWhileBusyIsRefused
  intro s straps rest hh hb
  rw [step_reset hh]
  exact if_pos hb

/-- Settles O7: what the reset input answers while idle holds the reset values and keeps what is not the block's. -/
theorem resetInputWhileIdle : Obligations.ResetInputWhileIdle := by
  unfold Obligations.ResetInputWhileIdle
  intro s straps rest hh hb
  refine ⟨_, (step_reset hh).trans (if_neg (ne_true_of_eq_false hb)), ?_⟩
  exact ⟨rfl, rfl, rfl, rfl, rfl, rfl, rfl, rfl, rfl, rfl, fun _ => ⟨rfl, rfl⟩, rfl, rfl, rfl, rfl, rfl, rfl, rfl⟩

/-- Settles O6: the values of the reset state. -/
theorem resetStateIsAsSpecified : Obligations.ResetStateIsAsSpecified := by
  unfold Obligations.ResetStateIsAsSpecified
  exact ⟨rfl, rfl, rfl, rfl, rfl, rfl, rfl, rfl, rfl, rfl, fun _ => ⟨rfl, rfl⟩, rfl, rfl⟩

/-- Settles O49: the port decodes the command, and the step is `exec` of it after the latch. -/
theorem stepRunsTheDecodedCommand : Obligations.StepRunsTheDecodedCommand := by
  unfold Obligations.StepRunsTheDecodedCommand
  intro s c rest i hb hh hdec
  rw [step_issue hh hb, runPort, hdec]
  rfl

/-- Settles O50: the step answers the state it was given. -/
theorem idleBlockDoesNothing : Obligations.IdleBlockDoesNothing := by
  unfold Obligations.IdleBlockDoesNothing
  intro s hh hb
  simp only [step, hh]
  exact if_neg (ne_true_of_eq_false hb)

theorem step_issue_of_busy {s : State} {c : PortCmd} {rest : List HostEvent} (hh : s.host = .issue c :: rest)
    (hb : s.busy = true) : step s = .fault .stuckBusy := by
  simp only [step, hh]
  exact if_pos hb

/-- Of the three selectors that take stream bytes, one that is short of them is no command (70 R195). -/
theorem decodePort_starved {c : PortCmd} (h : c.opsel.toNat ∈ [7, 21, 25])
    (hshort : c.stream.length < streamLength c) (w : CycleWidth) :
    decodePort w c = .error .streamStarved := by
  simp only [List.mem_cons, List.not_mem_nil, or_false] at h
  rcases h with h | h | h <;> (simp only [decodePort, h]; exact if_pos hshort)

/-- Settles O51: the step faults before it runs anything. -/
theorem portStops : Obligations.PortStops := by
  unfold Obligations.PortStops
  constructor
  · intro s c rest hh hb
    exact step_issue_of_busy hh hb
  · intro s c rest hh hb hop hshort
    rw [step_issue hh hb, runPort, decodePort_starved hop hshort]

/-- Settles O52: of what a step can do only a reset gives the configuration new values. -/
theorem onlyResetChangesTheConfiguration : Obligations.OnlyResetChangesTheConfiguration := by
  unfold Obligations.OnlyResetChangesTheConfiguration
  intro s t h
  rcases step_cases h with ⟨straps, rest, hh, -, rfl⟩ | ⟨c, rest, i, -, -, -, hexec⟩ | ⟨-, -, rfl⟩
  · exact ⟨rfl, .inr ⟨straps, rest, hh, rfl⟩⟩
  · have hkept := ends_kept (exec_ends hexec)
    exact ⟨hkept.par, .inl hkept.cfg⟩
  · exact ⟨rfl, .inl rfl⟩

/-! ### Waiting for ever -/

/-- No step goes on from a state with BUSY = 1, whatever the host does next (70 R187, R189). -/
theorem step_of_busy {t : State} (hb : t.busy = true) (rest : List HostEvent) (c : PortCmd) (straps : Straps) :
    step { t with host := [] } = .fault .stuckBusy ∧
    step { t with host := .issue c :: rest } = .fault .stuckBusy ∧
    step { t with host := .reset straps :: rest } = .refused .resetWhileBusy :=
  ⟨if_pos hb, step_issue_of_busy rfl hb, resetWhileBusyIsRefused _ straps rest rfl hb⟩

/-- Settles O30: the query stays in READ, where it waits for the answer. -/
theorem unansweredReadLeavesTheBlockBusy : Obligations.UnansweredReadLeavesTheBlockBusy := by
  unfold Obligations.UnansweredReadLeavesTheBlockBusy
  intro i s hq hw ha
  refine ⟨_, (exec_of_isQuery hq s).trans (query_never hw ha), rfl, rfl, ?_, rfl, rfl, rfl, ?_, step_of_busy rfl⟩
  · exact congrArg (s.tx ++ ·) (frameOf_nil i.opcode)
  · exact ⟨rfl, rfl, rfl, rfl, rfl, rfl, rfl, rfl⟩

/-- Settles O31: a frame longer than the transport's room is handed over in part, and the block stays in WRITE. -/
theorem stalledWriteLeavesTheBlockBusy : Obligations.StalledWriteLeavesTheBlockBusy := by
  unfold Obligations.StalledWriteLeavesTheBlockBusy
  intro i s w r hi hadm hw hroom hr
  obtain rfl : frameBody i.opcode (sentPayload i s.cfg) = w := by
    rw [encode_rowAt hadm] at hw
    exact Option.some.inj hw
  have hle := sentPayload_length_le hadm
  rw [frameBody_length] at hr
  obtain ⟨st, pb, pl, hstart⟩ := writeStart_eq i s
  have hout : outcome i s = stalledState (sentFrame i s.cfg) r (writeStart i s) := by
    rw [outcome, if_neg (ne_true_of_eq_false hi)]
    exact writePhase_short ((writeStart_txRoom i s).trans hroom) (by rw [sentFrame_length]; omega)
  refine ⟨_, (exec_of_admitted hadm).trans (congrArg _ hout), ?stalled, ?stream, step_of_busy (by rw [hstart]; rfl)⟩
  case stalled =>
    rw [hstart]
    refine { tx := rfl, idx := ?_, acc := rfl, busy := rfl, phase := rfl, result := rfl, err := rfl, room := rfl
             kept := ⟨rfl, rfl, rfl, rfl, rfl, rfl, rfl, rfl⟩, noRead := ⟨rfl, rfl, rfl⟩ }
    show (BitVec.ofNat 9 r).toNat = r
    rw [BitVec.toNat_ofNat]
    omega
  case stream =>
    intro hne
    cases i with
    | playByPath d p => exact absurd rfl (hne d p []).1
    | interludeByPath d p => exact absurd rfl (hne d p []).2.1
    | combinationPlay ts => exact absurd rfl (hne 0#8 [] ts).2.2
    | _ => rfl

/-! ### The invariant -/

theorem wireHistory_false_iff {tx : List Byte} :
    WireHistory tx false ↔ ∃ fs : List (List Byte), tx = fs.flatten ∧ ∀ f ∈ fs, CatalogFrame f := by
  constructor
  · rintro ⟨fs, part, rfl, hfs, hpart⟩
    exact ⟨fs, by rw [show part = [] from hpart, List.append_nil], hfs⟩
  · rintro ⟨fs, rfl, hfs⟩
    exact ⟨fs, [], (List.append_nil _).symm, hfs, rfl⟩

/-- A whole catalog frame joins a history of whole frames (20 R48 (a)). -/
theorem wireHistory_append_frame {tx f : List Byte} (htx : WireHistory tx false) (hf : CatalogFrame f) :
    WireHistory (tx ++ f) false := by
  obtain ⟨fs, rfl, hfs⟩ := wireHistory_false_iff.1 htx
  refine wireHistory_false_iff.2 ⟨fs ++ [f], by simp, fun g hg => ?_⟩
  rcases List.mem_append.1 hg with hg | hg
  · exact hfs g hg
  · exact List.mem_singleton.1 hg ▸ hf

/-- The part of a catalog frame that was accepted joins it while the write waits (70 R192 (d)). -/
theorem wireHistory_append_part {tx f : List Byte} {r : Nat} (htx : WireHistory tx false) (hf : CatalogFrame f)
    (hr : r < f.length) : WireHistory (tx ++ f.take r) true := by
  obtain ⟨fs, rfl, hfs⟩ := wireHistory_false_iff.1 htx
  exact ⟨fs, f.take r, rfl, hfs, f, hf, List.take_prefix r f, by rw [List.length_take]; omega⟩

/-- The frame of an admitted command is in the catalog: the row of its words covers it (30 R78). -/
theorem catalogFrame_sentFrame {cfg : Straps} {i : Instr} (h : admission cfg i = none) :
    CatalogFrame (sentFrame i cfg) := by
  obtain ⟨r, hmem, -, hcov⟩ := exists_row_covers cfg.pathUpper (i.rowAt cfg.cycleW)
  rw [opcode_rowAt] at hcov
  exact ⟨i.opcode, sentPayload i cfg, sentPayload_length_le h, rfl, List.any_eq_true.2 ⟨r, hmem, hcov⟩⟩

/-- The payload buffer at the start of an admitted command's write phase, and the response buffer, which is empty. -/
theorem writeStart_buffers {i : Instr} {s : State} (h : admission s.cfg i = none) :
    (writeStart i s).pbuf.wf ∧ (∀ c ∈ (writeStart i s).pbuf, c.1 < 255) ∧
      (writeStart i s).rxbuf = [] ∧ (writeStart i s).rxcnt = 0#3 := by
  have hfresh : ∀ bs : List Byte, bs.length ≤ 255 →
      (Memory.writeList [] 0 bs).wf ∧ ∀ c ∈ Memory.writeList [] 0 bs, c.1 < 255 := fun bs hbs =>
    ⟨Memory.writeList_wf bs 0 .nil, Memory.writeList_bound 255 bs 0 (by omega) nofun⟩
  have hlen := sentPayload_length_le h
  cases i with
  | playByPath d p => exact ⟨(hfresh _ hlen).1, (hfresh _ hlen).2, rfl, rfl⟩
  | interludeByPath d p => exact ⟨(hfresh _ hlen).1, (hfresh _ hlen).2, rfl, rfl⟩
  | _ => exact ⟨.nil, nofun, rfl, rfl⟩

/-- The invariant after a command that has read nothing: the response buffer is empty and the RX history as before. -/
theorem State.Inv.of_unread {s t : State} (hinv : s.Inv) (hkept : Kept s t) (hrx : t.rx = s.rx)
    (hrxbuf : t.rxbuf = []) (hrxcnt : t.rxcnt = 0#3)
    (settled : (t.busy = false ∧ t.phase = .idle) ∨ (t.busy = true ∧ t.phase = .read) ∨
      (t.busy = true ∧ t.phase = .write ∧ t.txRoom = some 0))
    (pbufWf : t.pbuf.wf) (pbufBound : ∀ c ∈ t.pbuf, c.1 < 255) (idxBound : t.idx.toNat ≤ 258)
    (wire : WireHistory t.tx (t.phase == .write)) : t.Inv where
  settled := settled
  pbufWf := pbufWf
  pbufBound := pbufBound
  rxbufWf := hrxbuf ▸ .nil
  rxbufBound := by rw [hrxbuf]; nofun
  idxBound := idxBound
  rxcntBound := fun _ => by rw [hrxcnt]; decide
  rxBound := by rw [hrx, hkept.par]; exact hinv.rxBound
  wire := wire

/-- Each way in which an admitted command ends or waits keeps the invariant. -/
theorem ends_inv {i : Instr} {s t : State} (hinv : s.Inv) (hb : s.busy = false) (hadm : admission s.cfg i = none)
    (h : Ends i s t) : t.Inv := by
  have hkept := ends_kept h
  have hle := sentPayload_length_le hadm
  have hcat := catalogFrame_sentFrame hadm
  obtain ⟨hpwf, hpbound, hrxbuf, hrxcnt⟩ := writeStart_buffers hadm
  have hwire : WireHistory s.tx false := by
    have hw := hinv.wire
    rcases hinv.settled with ⟨-, hp⟩ | ⟨hb', -⟩ | ⟨hb', -⟩
    · rwa [hp] at hw
    · exact absurd (hb'.symm.trans hb) (by decide)
    · exact absurd (hb'.symm.trans hb) (by decide)
  have hidx : ∀ k, k ≤ 258 → (BitVec.ofNat 9 k).toNat ≤ 258 := fun k hk => by
    rw [BitVec.toNat_ofNat]
    omega
  have hstartTx := writeStart_tx i s
  cases h with
  | silent => exact hinv.of_unread hkept rfl rfl rfl (.inl ⟨rfl, rfl⟩) .nil nofun (Nat.zero_le _) hwire
  | @stalled r hi hroom hr =>
    obtain ⟨st, pb, pl, hstart⟩ := writeStart_eq i s
    refine hinv.of_unread hkept (writeStart_kept i s).2.rx hrxbuf hrxcnt (.inr (.inr ⟨by rw [hstart]; rfl, rfl, rfl⟩))
      hpwf hpbound (hidx r (by omega)) ?_
    show WireHistory ((writeStart i s).tx ++ (sentFrame i s.cfg).take r) true
    rw [hstartTx]
    exact wireHistory_append_part hwire hcat (by rwa [sentFrame_length])
  | fired =>
    refine hinv.of_unread hkept (writeStart_kept i s).2.rx hrxbuf hrxcnt (.inl ⟨rfl, rfl⟩) hpwf hpbound
      (hidx _ (by omega)) ?_
    show WireHistory ((writeStart i s).tx ++ sentFrame i s.cfg) false
    rw [hstartTx]
    exact wireHistory_append_frame hwire hcat
  | unanswered hq =>
    rw [sentFrame, (isQuery_facts hq s).2.1] at hcat
    exact hinv.of_unread hkept rfl rfl rfl (.inr (.inl ⟨rfl, rfl⟩)) .nil nofun (hidx 3 (by decide))
      (wireHistory_append_frame hwire hcat)
  | @answered bs hq =>
    rw [sentFrame, (isQuery_facts hq s).2.1] at hcat
    obtain ⟨v, e, hj⟩ := judged_eq i s bs
    have hgot : (bs.take (i.queryClass.readLength s.par)).length ≤ i.queryClass.readLength s.par :=
      List.length_take_le _ _
    rw [hj]
    exact {
      settled := .inl ⟨rfl, rfl⟩
      pbufWf := .nil
      pbufBound := nofun
      rxbufWf := Memory.writeList_wf _ 0 .nil
      rxbufBound := Memory.writeList_bound 6 _ 0 (by rw [Nat.zero_add]; exact List.length_take_le _ _) nofun
      idxBound := hidx 3 (by decide)
      rxcntBound := fun h6 => by
        have hn : i.queryClass.readLength s.par ≤ 6 := by
          rcases readLength_cases i.queryClass s.par with hn | hn
          · exact hn.trans_le h6
          · exact hn.le
        exact (obtainedCount_toNat (by omega) s.reads).trans_le (hgot.trans hn)
      rxBound := fun rec hrec => by
        rcases List.mem_append.1 hrec with hrec | hrec
        · exact hinv.rxBound rec hrec
        · rw [List.mem_singleton.1 hrec]
          exact ⟨readLength_cases _ _, hgot⟩
      wire := wireHistory_append_frame hwire hcat }

/-- The state after reset meets the invariant, whatever is not the block's to reset (70 R186, log 19). -/
theorem inv_reset (cfg : Straps) (par : Params) (host : List HostEvent) (answers : List RxAnswer) (reads : Nat)
    (txRoom : Option Nat) :
    State.Inv { State.reset with
      cfg := cfg, par := par, host := host, answers := answers, reads := reads, txRoom := txRoom } where
  settled := .inl ⟨rfl, rfl⟩
  pbufWf := .nil
  pbufBound := nofun
  rxbufWf := .nil
  rxbufBound := nofun
  idxBound := Nat.zero_le _
  rxcntBound := fun _ => Nat.zero_le _
  rxBound := nofun
  wire := wireHistory_false_iff.2 ⟨[], rfl, nofun⟩

/-- Settles O53: the reset state is one of them. -/
theorem resetMeetsTheInvariant : Obligations.ResetMeetsTheInvariant := by
  unfold Obligations.ResetMeetsTheInvariant
  exact inv_reset Config.straps Config.params [] [] 0 none

/-- The latch writes only what the invariant does not speak of. -/
theorem inv_latch {s : State} (h : s.Inv) (c : PortCmd) (rest : List HostEvent) :
    (latch c { s with host := rest }).Inv :=
  ⟨h.settled, h.pbufWf, h.pbufBound, h.rxbufWf, h.rxbufBound, h.idxBound, h.rxcntBound, h.rxBound, h.wire⟩

/-- Settles O54: a step resets, executes a command from the latched state, or does nothing. -/
theorem stepKeepsTheInvariant : Obligations.StepKeepsTheInvariant := by
  unfold Obligations.StepKeepsTheInvariant
  intro s t hinv h
  rcases step_cases h with ⟨straps, rest, -, -, rfl⟩ | ⟨c, rest, i, -, hb, -, hexec⟩ | ⟨-, -, rfl⟩
  · exact inv_reset ..
  · exact ends_inv (inv_latch hinv c rest) hb (exec_eq_next.1 hexec).1 (exec_ends hexec)
  · exact hinv

/-! ### The checksum -/

theorem checksum_append (a b : List Byte) : checksum (a ++ b) = checksum a + checksum b := by
  apply BitVec.eq_of_toNat_eq
  simp only [BitVec.toNat_add, checksum_toNat, List.map_append, List.sum_append]
  omega

theorem checksum_cons (c : Byte) (bs : List Byte) : checksum (c :: bs) = c + checksum bs := by
  apply BitVec.eq_of_toNat_eq
  simp only [BitVec.toNat_add, checksum_toNat, List.map_cons, List.sum_cons]
  omega

/-- The order of the bytes plays no part (40 R81 (c)). -/
theorem checksum_perm {a b : List Byte} (h : a.Perm b) : checksum a = checksum b := by
  rw [checksum, checksum, (h.map BitVec.toNat).sum_eq]

/-- A byte changed by `d` changes the checksum by `d` (40 R81 (d)). -/
theorem checksum_change (a b : List Byte) (c d : Byte) :
    checksum (a ++ (c + d) :: b) = checksum (a ++ c :: b) + d := by
  simp only [checksum_append, checksum_cons]
  ac_rfl

/-- Settles O2: the laws follow from the sum over a concatenation; a changed byte shows by
`checksum_replace_inj`. -/
theorem checksumLaws : Obligations.ChecksumLaws := by
  unfold Obligations.ChecksumLaws
  refine ⟨rfl, checksum_append, runningSum_eq_checksum, fun a b => checksum_perm, checksum_change, ?changed,
    ?compensated, by decide, ?wrapped⟩
  case changed =>
    intro a b c d hd h
    exact hd (add_eq_left.1 (checksum_replace_inj.1 h))
  case compensated =>
    intro a b e x y d
    simp only [checksum_append, checksum_cons, List.append_assoc, List.cons_append]
    have hxy : (x + d) + (y - d) = x + y := by
      rw [BitVec.sub_eq_add_neg]
      calc x + d + (y + -d) = x + y + (d + -d) := by ac_rfl
        _ = x + y := by rw [BitVec.add_right_neg, BitVec.add_zero]
    calc checksum a + (x + d + (checksum b + (y - d + checksum e)))
        = checksum a + (checksum b + ((x + d + (y - d)) + checksum e)) := by ac_rfl
      _ = checksum a + (x + (checksum b + (y + checksum e))) := by rw [hxy]; ac_rfl
  case wrapped =>
    rw [checksum, List.map_replicate, List.sum_replicate]
    rfl

/-! ### Commands with one operand -/

/-- The frame of format `B`. -/
theorem frameOf_byte (op v : Byte) :
    frameOf op [v] = [0xAA#8, op, 0x01#8, v, BitVec.ofNat 8 (0xAA + op.toNat + 0x01 + v.toNat)] := by
  rw [frameOf, checksum_frameBody]
  rfl

/-- A command that fires opcode `op` with one byte ends with the frame of format `B` handed over, provided its write
returns. -/
theorem exec_fired_of_byte {i : Instr} {op v : Byte} {s : State} (hi : exec i s = fireAndForget op [v] s)
    (hw : writeReturns 5 s = true) :
    ∃ t, exec i s = .next t ∧
      Fired [0xAA#8, op, 0x01#8, v, BitVec.ofNat 8 (0xAA + op.toNat + 0x01 + v.toNat)] s t ∧
      t.stream = s.stream := by
  rw [hi, ← frameOf_byte]
  exact fireAndForget_fired (p := [v]) (by decide : 1 ≤ 255) hw

/-- Settles O11: each row of the table fires its opcode with the operand byte. -/
theorem byteCommandsSendAnyByte : Obligations.ByteCommandsSendAnyByte := by
  unfold Obligations.ByteCommandsSendAnyByte
  intro s v e he hw
  simp only [List.mem_cons, List.not_mem_nil, or_false] at he
  rcases he with rfl | rfl | rfl | rfl
  · exact exec_fired_of_byte (exec_setVolume v s) hw
  · exact exec_fired_of_byte (exec_setCycleMode v s) hw
  · exact exec_fired_of_byte (exec_setEq v s) hw
  · exact exec_fired_of_byte (exec_setDevice v s) hw

/-- Settles O12: both rows are the one operation, which fires the low byte, refuses, or fires the number. -/
theorem setCycleTimesFollowsTheConfiguredWidth : Obligations.SetCycleTimesFollowsTheConfiguredWidth := by
  unfold Obligations.SetCycleTimesFollowsTheConfiguredWidth
  intro s n i hi
  have hexec : exec i s = setCycleTimes n s := by
    simp only [List.mem_cons, List.not_mem_nil, or_false] at hi
    rcases hi with rfl | rfl
    · exact exec_setCycleTimesW1 n s
    · exact exec_setCycleTimesW2 n s
  refine ⟨fun hone hn hw => ?_, fun hone hn => ?_, fun htwo hw => ?_⟩
  · have hlo : lo n = BitVec.ofNat 8 n.toNat := by rw [lo_eq, Nat.mod_eq_of_lt (by omega)]
    have hfire : exec i s = fireAndForget 0x19#8 [lo n] s := by
      rw [hexec, setCycleTimes, if_neg (fun hc => Nat.not_lt.2 hn hc.1), hone]
      rfl
    have hfired := exec_fired_of_byte hfire hw
    rwa [lo_toNat, Nat.mod_eq_of_lt (by omega), hlo] at hfired
  · rw [hexec, setCycleTimes, if_pos ⟨hn, hone⟩]
  · have hfire : exec i s = fireAndForget 0x19#8 (numPayload n) s := by
      rw [hexec, setCycleTimes, if_neg (fun hc => by cases htwo.symm.trans hc.2), htwo]
      rfl
    exact exec_fired_of_numPayload hfire hw

/-! ### Paths -/

/-- Settles O17: folding moves the letters `a` to `z` to `A` to `Z` and nothing else, so it neither makes nor removes a
`'.'` or a `'/'`. -/
theorem foldingIsIndependentOfEscaping : Obligations.FoldingIsIndependentOfEscaping := by
  unfold Obligations.FoldingIsIndependentOfEscaping
  have hoff : ∀ c : Byte, fold c false = c := fun c => rfl
  refine ⟨hoff, fun c h1 h2 => ?_, fun c h => ?_, fun c u => ?_, fun c u => ?_, fun p => ?_⟩
  · have hc : fold c true = c - 0x20#8 := if_pos (by simp [h1, h2])
    rw [hc, BitVec.toNat_sub]
    simp only [BitVec.toNat_ofNat]
    omega
  · refine if_neg ?_
    simp only [Bool.true_and, Bool.and_eq_true, decide_eq_true_eq]
    omega
  · exact ⟨fold_eq_iff (by decide) u, fold_eq_iff (by decide) u⟩
  · by_cases hd : c = dot
    · rw [hd, fold_of_lt (by decide)]
      rfl
    · by_cases hs : c = slash
      · rw [hs, fold_of_lt (by decide)]
        rfl
      · rw [escapeByte_other hd hs,
          escapeByte_other (by rwa [Ne, fold_eq_iff (by decide)]) (by rwa [Ne, fold_eq_iff (by decide)]), hoff]
  · cases p with
    | nil => rfl
    | cons c rest => rw [encodePath_cons_length, encodePath_cons_length]

/-- What may stand behind a byte of an encoded path: no `'.'`, and a `'/'` only behind a `'*'` (43 R120). -/
def EscapedAfter (x y : Byte) : Prop := y ≠ dot ∧ (y = slash → x = star)

/-- Behind any byte the escape of a path is escaped, byte by byte. -/
theorem isChain_escapedAfter (upper : Bool) (rest : List Byte) :
    ∀ c : Byte, (c :: rest.flatMap (escapeByte upper)).IsChain EscapedAfter := by
  induction rest with
  | nil => exact fun c => .singleton c
  | cons b rest ih =>
    intro c
    rw [List.flatMap_cons]
    by_cases hd : b = dot
    · rw [hd, escapeByte_dot]
      exact .cons_cons ⟨by decide, fun h => absurd h (by decide)⟩ (ih star)
    · by_cases hs : b = slash
      · rw [hs, escapeByte_slash]
        exact .cons_cons ⟨by decide, fun h => absurd h (by decide)⟩ (.cons_cons ⟨by decide, fun _ => rfl⟩ (ih slash))
      · rw [escapeByte_other hd hs]
        refine .cons_cons ⟨?_, fun h => absurd h ?_⟩ (ih _)
        · rwa [Ne, fold_eq_iff (by decide)]
        · rwa [fold_eq_iff (by decide)]

/-- Settles O18: any two neighbours in an encoded path are as the escape leaves them. -/
theorem encodedPathIsEscaped : Obligations.EncodedPathIsEscaped := by
  unfold Obligations.EncodedPathIsEscaped
  intro p upper
  cases p with
  | nil => exact ⟨rfl, fun a b x y h => by cases a <;> cases h⟩
  | cons c rest =>
    exact ⟨rfl, fun a b x y h =>
      List.isChain_iff_forall_rel_of_append_cons_cons.1 (isChain_escapedAfter upper rest c) h⟩

/-- Settles O15: a path is refused by its first byte or by its length, and a path's escape is at least as long as the
path and at most twice. -/
theorem pathRefusals : Obligations.PathRefusals := by
  unfold Obligations.PathRefusals
  refine ⟨fun s d c rest i hi => ?_, fun p upper hp => ?_, fun p upper hp => ?_⟩
  · have hadm : admission s.cfg i = pathAdmission d (c :: rest) s.cfg.pathUpper := by
      simp only [List.mem_cons, List.not_mem_nil, or_false] at hi
      rcases hi with rfl | rfl <;> rfl
    constructor
    · intro hc
      exact exec_of_refused (hadm.trans (if_pos hc))
    · intro hc hlong
      refine exec_of_refused (hadm.trans ((if_neg (not_not.2 hc)).trans (if_pos ?_)))
      rw [pathPayload_length, Config.payloadMax]
      omega
  · cases p with
    | nil => exact Nat.zero_le _
    | cons c rest =>
      have hcount : rest.count slash ≤ rest.length := List.count_le_length
      rw [encodePath_cons_length]
      rw [List.length_cons] at hp
      omega
  · cases p with
    | nil => cases hp
    | cons c rest =>
      rw [encodePath_cons_length]
      rw [List.length_cons] at hp
      omega

/-! ### Commands that assemble or stream their payload -/

/-- An admitted command that is no query and whose write returns ends with its whole frame handed over (40 R85). -/
theorem exec_fired_of_admitted {i : Instr} {s : State} (hadm : admission s.cfg i = none) (hi : i.isNoOp = false)
    (hq : i.isQuery = false) (hw : writeReturns ((sentPayload i s.cfg).length + 4) s = true) :
    exec i s = .next (finish 0x0000#16 (sentState i.opcode (sentPayload i s.cfg) (writeStart i s))) ∧
    Fired (sentFrame i s.cfg) s (finish 0x0000#16 (sentState i.opcode (sentPayload i s.cfg) (writeStart i s))) := by
  have hexec : exec i s = .next (finish 0x0000#16 (sentState i.opcode (sentPayload i s.cfg) (writeStart i s))) := by
    have hw' : writeReturns ((sentPayload i s.cfg).length + 4) (writeStart i s) = true := by
      rwa [writeReturns, writeStart_txRoom]
    rw [exec_of_admitted hadm, outcome, if_neg (ne_true_of_eq_false hi), sentFrame, writePhase_whole hw', afterWrite,
      if_neg (ne_true_of_eq_false hq)]
  obtain ⟨st, pb, pl, hstart⟩ := writeStart_eq i s
  refine ⟨hexec, ?_⟩
  rw [hstart]
  exact { tx := rfl, result := rfl, err := rfl, busy := rfl, phase := rfl
          kept := ⟨rfl, rfl, rfl, rfl, rfl, rfl, rfl, rfl⟩, noRead := ⟨rfl, rfl, rfl⟩ }

/-- The body of the frame of format `DP`. -/
theorem frameBody_pathPayload (op d : Byte) (p : List Byte) (upper : Bool) :
    frameBody op (pathPayload d p upper) =
      [0xAA#8, op, BitVec.ofNat 8 (1 + (encodePath p upper).length), d] ++ encodePath p upper := by
  rw [frameBody, pathPayload_length]
  rfl

section
variable {s : State} {d : Byte} {rest : List Byte}

/-- An absolute path that fits is admitted, and its write is that of five bytes more (43 R124, R125). -/
theorem path_admitted (hlen : (encodePath (slash :: rest) s.cfg.pathUpper).length ≤ 254)
    (hw : writeReturns (5 + (encodePath (slash :: rest) s.cfg.pathUpper).length) s = true) :
    pathAdmission d (slash :: rest) s.cfg.pathUpper = none ∧
    writeReturns ((pathPayload d (slash :: rest) s.cfg.pathUpper).length + 4) s = true := by
  rw [pathAdmission_cons_eq_none, pathPayload_length]
  refine ⟨⟨rfl, by omega⟩, ?_⟩
  rwa [Nat.add_right_comm]

/-- A path command, by its opcode, inside its domain. -/
theorem exec_fired_of_path {i : Instr} (hadm : admission s.cfg i = pathAdmission d (slash :: rest) s.cfg.pathUpper)
    (hi : i.isNoOp = false) (hq : i.isQuery = false)
    (hpay : sentPayload i s.cfg = pathPayload d (slash :: rest) s.cfg.pathUpper)
    (hstart : writeStart i s = pathAssembled d (slash :: rest) s)
    (hlen : (encodePath (slash :: rest) s.cfg.pathUpper).length ≤ 254)
    (hw : writeReturns (5 + (encodePath (slash :: rest) s.cfg.pathUpper).length) s = true) :
    ∃ t, exec i s = .next t ∧ Fired (frameOf i.opcode (pathPayload d (slash :: rest) s.cfg.pathUpper)) s t ∧
      t.stream = [] ∧ t.plen.toNat = 1 + (encodePath (slash :: rest) s.cfg.pathUpper).length ∧
      (∀ j, t.pbuf.read j = (d :: encodePath (slash :: rest) s.cfg.pathUpper)[j]?) ∧
      (∀ j, t.rxbuf.read j = none) := by
  obtain ⟨hadm', hw'⟩ := path_admitted (d := d) hlen hw
  obtain ⟨hexec, hfired⟩ := exec_fired_of_admitted (hadm.trans hadm') hi hq (by rwa [hpay])
  rw [sentFrame, hpay, hstart] at hfired
  rw [hpay, hstart] at hexec
  refine ⟨_, hexec, hfired, rfl, ?_, fun j => Memory.read_fresh _ j, fun j => rfl⟩
  show (BitVec.ofNat 8 (pathPayload d (slash :: rest) s.cfg.pathUpper).length).toNat = _
  rw [pathPayload_length, BitVec.toNat_ofNat]
  omega

end

/-- Settles O13: both path commands assemble device byte and encoded path, and send them. -/
theorem pathCommandsSendDeviceAndEncodedPath : Obligations.PathCommandsSendDeviceAndEncodedPath := by
  unfold Obligations.PathCommandsSendDeviceAndEncodedPath
  intro s d rest e he hlen hw
  simp only [List.mem_cons, List.not_mem_nil, or_false] at he
  rcases he with rfl | rfl
  · rw [← frameBody_pathPayload]
    exact exec_fired_of_path (i := .playByPath d (slash :: rest)) rfl rfl rfl rfl rfl hlen hw
  · rw [← frameBody_pathPayload]
    exact exec_fired_of_path (i := .interludeByPath d (slash :: rest)) rfl rfl rfl rfl rfl hlen hw

/-- The opcodes of the two path commands differ by 0x0F, and so do the checksums of one payload (43 R127). -/
theorem checksum_interlude (p : List Byte) :
    checksum (frameBody 0x17#8 p) = checksum (frameBody 0x08#8 p) + 0x0F#8 := by
  simp only [frameBody, checksum_cons, show (0x17#8 : Byte) = 0x08#8 + 0x0F#8 from rfl]
  ac_rfl

/-- Settles O19: the bodies differ in the opcode alone. -/
theorem interludeFrameDiffersByOpcode : Obligations.InterludeFrameDiffersByOpcode := by
  unfold Obligations.InterludeFrameDiffersByOpcode
  intro s d rest hlen hw
  obtain ⟨t, ht, htf, -⟩ := exec_fired_of_path (i := .playByPath d (slash :: rest)) rfl rfl rfl rfl rfl hlen hw
  obtain ⟨u, hu, huf, -⟩ := exec_fired_of_path (i := .interludeByPath d (slash :: rest)) rfl rfl rfl rfl rfl hlen hw
  refine ⟨t, u, BitVec.ofNat 8 (pathPayload d (slash :: rest) s.cfg.pathUpper).length ::
    pathPayload d (slash :: rest) s.cfg.pathUpper,
    checksum (frameBody 0x08#8 (pathPayload d (slash :: rest) s.cfg.pathUpper)), ht, hu, ?_, ?_⟩
  · rw [htf.tx, List.append_assoc]
    rfl
  · rw [huf.tx, ← checksum_interlude, List.append_assoc]
    rfl

/-- Settles O20: the streamed frame is the frame builder's, and what the transport has accepted of S is all of it. -/
theorem combinationPlayStreamsItsFrame : Obligations.CombinationPlayStreamsItsFrame := by
  unfold Obligations.CombinationPlayStreamsItsFrame
  intro s ts hpos hmax hw
  have hlen := tokenBytes_length ts
  have hi : (Instr.combinationPlay ts).isNoOp = false := by
    cases ts with
    | nil => cases hpos
    | cons t ts => rfl
  obtain ⟨hexec, hfired⟩ := exec_fired_of_admitted (s := s) (admission_combinationPlay_eq_none.2 hmax) hi rfl
    (show writeReturns ((tokenBytes ts).length + 4) s = true by rwa [hlen])
  refine ⟨_, frameOf 0x1B#8 (tokenBytes ts), hexec, buildFrame_eq (by omega), ?_, hfired, ?_, fun j => ⟨rfl, rfl⟩⟩
  · show _ = _ ++ [checksum (frameBody 0x1B#8 (tokenBytes ts))]
    rw [← hlen]
    rfl
  · show (tokenBytes ts).drop (acceptedCount (2 * ts.length + 4) s.txRoom - 3) = []
    rw [acceptedCount_of_returns hw]
    exact List.drop_of_length_le (by omega)

/-- Settles O22: the count is outside the domain. -/
theorem tooManyTokensAreRefused : Obligations.TooManyTokensAreRefused := by
  unfold Obligations.TooManyTokensAreRefused
  exact fun s ts h => exec_of_refused (if_pos (show Config.tokensMax < ts.length from h))

/-! ### Queries -/

/-- Without a byte at offset 3 the value is the free one (log 6). -/
theorem resp8_value_short {bs : List Byte} (h : bs.length < 4) (free : Byte) :
    RespClass.resp8.value free bs = zext16 free := by
  rw [RespClass.value, decode8, List.getD_eq_default _ _ (Nat.le_of_lt_succ h)]

/-- A command that is the 8-bit query of opcode `op` ends, before an answer of RLEN8 bytes without a byte at offset 3,
with the free value or, for no bytes at all, by the free verdict (log 6). -/
theorem exec_queried_of_small_resp8 {i : Instr} {op fail : Byte} {s : State} {bs : List Byte}
    (hi : exec i s = query op .resp8 (zext16 fail) s) (hw : writeReturns 4 s = true)
    (ha : nextAnswer s.par.rlen8 s = .bytes bs) (h4 : s.par.rlen8 < 4) (hle : s.par.rlen8 ≤ bs.length) :
    ∃ t v, exec i s = .next t ∧
      (1 ≤ s.par.rlen8 → validate (bs.take s.par.rlen8) = true →
        Queried [0xAA#8, op, 0x00#8, 0xAA#8 + op] s.par.rlen8 (bs.take s.par.rlen8) (zext16 v) .none s t) ∧
      (s.par.rlen8 = 0 →
        Queried [0xAA#8, op, 0x00#8, 0xAA#8 + op] 0 [] (zext16 v) .none s t ∨
        Queried [0xAA#8, op, 0x00#8, 0xAA#8 + op] 0 [] (zext16 fail) .csum s t) := by
  have hgot : (bs.take s.par.rlen8).length = s.par.rlen8 := List.length_take_of_le hle
  have hval := resp8_value_short (bs := bs.take s.par.rlen8) (by omega)
    (Config.missingData (answeredState op s.par.rlen8 bs s).reads)
  have hexec : exec i s = .next (judgeResponse .resp8 s.par.rlen8 (zext16 fail) (bs.take s.par.rlen8)
      (answeredState op s.par.rlen8 bs s)) := hi.trans (query_answered hw ha)
  rw [← frameOf_nil]
  refine ⟨_, Config.missingData (answeredState op s.par.rlen8 bs s).reads, hexec, ?_, ?_⟩
  · intro hpos hv
    rw [← hval]
    exact judgeResponse_valid (cls := .resp8) hpos hgot hv ▸ takeError_queried .none
  · intro hz
    have hend : ∀ v e, Queried (frameOf op []) 0 [] v e s (takeError e v (answeredState op s.par.rlen8 bs s)) :=
      fun v e => by
        have hq := takeError_queried (op := op) (n := s.par.rlen8) (v := v) (bs := bs) (s := s) e
        simpa only [hz, List.take_zero] using hq
    rw [judgeResponse, if_neg hgot.not_lt, ← hval]
    cases responseValid (bs.take s.par.rlen8) (answeredState op s.par.rlen8 bs s) with
    | true => exact .inl (hend _ _)
    | false => exact .inr (hend _ _)

/-- Settles O24: each row of the table is an 8-bit query with its opcode and sentinel. -/
theorem eightBitQueriesWithoutADataByte : Obligations.EightBitQueriesWithoutADataByte := by
  unfold Obligations.EightBitQueriesWithoutADataByte
  intro s bs e he hw ha h4 hle
  simp only [List.mem_cons, List.not_mem_nil, or_false] at he
  rcases he with rfl | rfl
  · exact exec_queried_of_small_resp8 (exec_queryPlayState s) hw ha h4 hle
  · exact exec_queried_of_small_resp8 (exec_queryPlayingDevice s) hw ha h4 hle

/-- A query whose answer has the full length and a matching checksum ends with its value (45 R147, R148). -/
theorem exec_query_valid {i : Instr} {s : State} {bs : List Byte} (hq : i.isQuery = true)
    (hw : writeReturns 4 s = true) (ha : nextAnswer (i.queryClass.readLength s.par) s = .bytes bs)
    (hlen : bs.length = i.queryClass.readLength s.par) (hpos : 0 < bs.length) (hv : validate bs = true) :
    ∃ t free, exec i s = .next t ∧ t.result = i.queryClass.value free bs ∧ t.err = .none := by
  have htake : bs.take (i.queryClass.readLength s.par) = bs := List.take_of_length_le hlen.le
  obtain ⟨t, ht, -, -, hvalid⟩ := query_queried (op := i.opcode) (v := i.sentinel s.par) hw rfl ha
  obtain ⟨free, hqd⟩ := hvalid (by omega) hlen.ge (htake.symm ▸ hv)
  rw [htake] at hqd
  exact ⟨t, free, (exec_of_isQuery hq s).trans ht, hqd.result, hqd.err⟩

/-- The four queries of 45 R154 to R157 are the 16-bit ones. -/
theorem queries_resp16 {i : Instr}
    (h : i ∈ [Instr.querySoundCount, Instr.queryPlayingSound, Instr.queryDirFirst, Instr.queryDirCount]) :
    i.isQuery = true ∧ i.queryClass = .resp16 := by
  simp only [List.mem_cons, List.not_mem_nil, or_false] at h
  rcases h with rfl | rfl | rfl | rfl <;> exact ⟨rfl, rfl⟩

/-- The two queries of 45 R152, R153 are the 8-bit ones. -/
theorem queries_resp8 {i : Instr} (h : i ∈ [Instr.queryPlayState, Instr.queryPlayingDevice]) :
    i.isQuery = true ∧ i.queryClass = .resp8 := by
  simp only [List.mem_cons, List.not_mem_nil, or_false] at h
  rcases h with rfl | rfl <;> exact ⟨rfl, rfl⟩

/-- A 16-bit query before any six bytes with a matching checksum (30 R66, 45 R146, R148). -/
theorem exec_resp16_of_checksum {i : Instr} {s : State} {a b c h l : Byte} (hq : i.isQuery = true)
    (hc : i.queryClass = .resp16) (hw : writeReturns 4 s = true)
    (ha : nextAnswer 6 s = .bytes [a, b, c, h, l, checksum [a, b, c, h, l]]) :
    ∃ t, exec i s = .next t ∧ t.result = join h l ∧ t.err = .none := by
  have hn : i.queryClass.readLength s.par = 6 := by rw [hc]; rfl
  obtain ⟨t, free, ht, hr, he⟩ := exec_query_valid (bs := [a, b, c, h, l, checksum [a, b, c, h, l]])
    hq hw (hn ▸ ha) hn.symm (by decide : 0 < 6)
    ((validate_concat [a, b, c, h, l] _).2 rfl)
  rw [hc] at hr
  exact ⟨t, ht, hr, he⟩

/-- An 8-bit query at RLEN8 = 5 before any five bytes with a matching checksum (30 R66, 45 R146, R147). -/
theorem exec_resp8_of_checksum {i : Instr} {s : State} {a b c v : Byte} (hq : i.isQuery = true)
    (hc : i.queryClass = .resp8) (h5 : s.par.rlen8 = 5) (hw : writeReturns 4 s = true)
    (ha : nextAnswer 5 s = .bytes [a, b, c, v, checksum [a, b, c, v]]) :
    ∃ t, exec i s = .next t ∧ t.result = zext16 v ∧ t.err = .none := by
  have hn : i.queryClass.readLength s.par = 5 := by rw [hc]; exact h5
  obtain ⟨t, free, ht, hr, he⟩ := exec_query_valid (bs := [a, b, c, v, checksum [a, b, c, v]])
    hq hw (hn ▸ ha) hn.symm (by decide : 0 < 5)
    ((validate_concat [a, b, c, v] _).2 rfl)
  rw [hc] at hr
  exact ⟨t, ht, hr, he⟩

/-- Settles O26: the checksum matches, whatever the first three bytes. -/
theorem responseHeaderIsNotChecked : Obligations.ResponseHeaderIsNotChecked := by
  unfold Obligations.ResponseHeaderIsNotChecked
  intro s a b c h l rest hw
  constructor
  · intro i hi
    obtain ⟨hq, hc⟩ := queries_resp16 hi
    obtain ⟨t, ht, hr, he⟩ := exec_resp16_of_checksum
      (s := { s with answers := .bytes [a, b, c, h, l, checksum [a, b, c, h, l]] :: rest }) hq hc hw rfl
    exact ⟨t, ht, by rw [hr, join_toNat], he⟩
  · intro h5 i hi
    obtain ⟨hq, hc⟩ := queries_resp8 hi
    obtain ⟨t, ht, hr, he⟩ := exec_resp8_of_checksum
      (s := { s with answers := .bytes [a, b, c, h, checksum [a, b, c, h]] :: rest }) hq hc h5 hw rfl
    exact ⟨t, ht, by rw [hr, zext16_toNat], he⟩

/-- Settles O27: the well-formed response is one with a matching checksum. -/
theorem wellFormedResponseYieldsItsValue : Obligations.WellFormedResponseYieldsItsValue := by
  unfold Obligations.WellFormedResponseYieldsItsValue
  intro s op v n hw
  constructor
  · intro i hi ha
    obtain ⟨hq, hc⟩ := queries_resp16 hi
    obtain ⟨t, ht, hr, he⟩ := exec_resp16_of_checksum hq hc hw ha
    exact ⟨t, ht, hr.trans (join_hi_lo n), he⟩
  · intro h5 i hi ha
    obtain ⟨hq, hc⟩ := queries_resp8 hi
    obtain ⟨t, ht, hr, he⟩ := exec_resp8_of_checksum hq hc h5 hw ha
    exact ⟨t, ht, by rw [hr, zext16_toNat], he⟩

/-- A response that is judged without error had its full length and gives its value (45 R145, R151). -/
theorem judgeResponse_of_err_none {cls : RespClass} {n : Nat} {v : Half} {bs : List Byte} {s : State}
    (h : (judgeResponse cls n v bs s).err = .none) :
    n ≤ bs.length ∧ (judgeResponse cls n v bs s).result = cls.value (Config.missingData s.reads) bs := by
  unfold judgeResponse at h ⊢
  split at h
  · cases h
  · rename_i hlen
    split at h
    · rename_i hv
      rw [if_neg hlen, if_pos hv]
      exact ⟨Nat.le_of_not_lt hlen, rfl⟩
    · cases h

/-- Settles O28: the buffer is written with the first six of the bytes obtained, and the value is decoded from
them. -/
theorem responseBufferHoldsTheBytesObtained : Obligations.ResponseBufferHoldsTheBytesObtained := by
  unfold Obligations.ResponseBufferHoldsTheBytesObtained
  intro i s t r hq h hrx
  have hne : ∀ {l : List RxRecord}, l = s.rx → l ≠ s.rx ++ [r] := fun hl => by
    rw [hl]
    exact fun hc => absurd (List.append_right_eq_self.1 hc.symm) (List.cons_ne_nil _ _)
  cases exec_ends h with
  | silent hi => exact absurd hrx (hne rfl)
  | stalled => exact absurd hrx (hne (writeStart_kept i s).2.rx)
  | fired => exact absurd hrx (hne (writeStart_kept i s).2.rx)
  | unanswered => exact absurd hrx (hne rfl)
  | @answered bs =>
    obtain ⟨v, e, hj⟩ := judged_eq i s bs
    have hgot : bs.take (i.queryClass.readLength s.par) = r.got := by
      rw [hj] at hrx
      exact congrArg RxRecord.got (List.singleton_inj.1 (List.append_cancel_left hrx))
    have hread : ∀ j, (answeredState i.opcode (i.queryClass.readLength s.par) bs s).rxbuf.read j
        = if j < 6 then r.got[j]? else none := fun j => by
      rw [← hgot, ← List.getElem?_take]
      exact Memory.read_fresh _ j
    refine ⟨fun h7 => ?_, fun j => ?_, fun herr => ?_⟩
    · rw [hj, ← hgot]
      exact obtainedCount_toNat (hgot ▸ h7) s.reads
    · rw [hj]
      exact hread j
    · obtain ⟨hlen, hval⟩ := judgeResponse_of_err_none herr
      rw [hval, hj, hgot]
      rw [hgot] at hlen
      refine ⟨fun hc h4 => ?_, fun hc => ?_⟩
      · have h3 : 3 < r.got.length := by
          rw [hc] at hlen
          exact (show 3 < s.par.rlen8 from h4).trans_le hlen
        refine ⟨r.got[3], (hread 3).trans (List.getElem?_eq_getElem h3), ?_⟩
        rw [hc, RespClass.value, decode8, List.getD_eq_getElem _ _ h3]
      · have h6 : 6 ≤ r.got.length := by
          rw [hc] at hlen
          exact hlen
        refine ⟨r.got[3], r.got[4], (hread 3).trans (List.getElem?_eq_getElem (by omega)),
          (hread 4).trans (List.getElem?_eq_getElem (by omega)), ?_⟩
        rw [hc, RespClass.value, decode16, byteAt, byteAt, List.getD_eq_getElem _ _ (by omega),
          List.getD_eq_getElem _ _ (by omega)]

/-! ### What the port has latched -/

/-- Where the command's payload comes from (30 R62). -/
def payloadSource : Instr → PayloadSource
  | .setDevice _ => .dev
  | .setVolume _ | .setCycleMode _ | .setEq _ => .val
  | .setCycleTimesW1 _ | .setCycleTimesW2 _ => .cycle
  | .playByNumber _ | .select _ => .num
  | .interludeByNumber _ _ => .devNum
  | .playByPath _ _ | .interludeByPath _ _ => .devPath
  | .combinationPlay _ => .tokens
  | _ => .empty

/-- The command's row in the sequencer's table (30 R69). -/
def commandRow (i : Instr) : PortRow := ⟨i.opcode, payloadSource i, if i.isQuery then some i.queryClass else none⟩

/-- The operand registers and S hold the command's operands (10 R23, R24). -/
def Latched (i : Instr) (s : State) : Prop :=
  match i with
  | .playByNumber n | .select n | .setCycleTimesW1 n | .setCycleTimesW2 n => s.aNum = n
  | .setDevice d => s.aDev = d
  | .setVolume v | .setCycleMode v | .setEq v => s.aVal = v
  | .interludeByNumber d n => s.aDev = d ∧ s.aNum = n
  | .playByPath d p | .interludeByPath d p => s.aDev = d ∧ s.stream = p
  | .combinationPlay ts => s.aCnt.toNat = ts.length ∧ s.stream = tokenBytes ts
  | _ => True

/-- The stream bytes of a token list, as many as `A.CNT` announces, are those of the tokens read from them. -/
theorem latched_tokens {c : PortCmd} (s : State) (hop : c.opsel.toNat = 25)
    (hlong : ¬ c.stream.length < streamLength c) :
    Latched (.combinationPlay (pairTokens (c.stream.take (streamLength c)))) (latch c s) := by
  have hlen : streamLength c = 2 * c.cnt.toNat := by simp only [streamLength, hop]
  have htake : (c.stream.take (streamLength c)).length = 2 * c.cnt.toNat := by
    rw [List.length_take_of_le (Nat.le_of_not_lt hlong), hlen]
  have hbytes := tokenBytes_pairTokens (bs := c.stream.take (streamLength c)) (by omega)
  refine ⟨?_, hbytes.symm⟩
  have hcount := tokenBytes_length (pairTokens (c.stream.take (streamLength c)))
  rw [hbytes] at hcount
  show c.cnt.toNat = _
  omega

/-- A command that the port decodes is the one of the selector's row, with its operands latched. -/
theorem decodePort_latched {w : CycleWidth} {c : PortCmd} {i : Instr} (h : decodePort w c = .ok i) (s : State) :
    portRow c.opsel.toNat = some (commandRow i) ∧
    (i.isQuery = true → ∀ par, sentinelOf c.opsel.toNat par = i.sentinel par) ∧
    Latched i (latch c s) := by
  unfold decodePort at h
  split at h
  -- the two path commands
  case h_8 hop | h_22 hop =>
    split at h
    · cases h
    · cases h
      rw [hop]
      exact ⟨rfl, nofun, rfl, rfl⟩
  -- COMBINATION_PLAY
  case h_26 hop =>
    split at h
    · cases h
    · rename_i hlong
      cases h
      refine ⟨?_, nofun, latched_tokens s hop hlong⟩
      rw [hop]
      rfl
  -- INTERLUDE_BY_NUMBER, with two operands
  case h_11 hop =>
    cases h
    rw [hop]
    exact ⟨rfl, nofun, rfl, rfl⟩
  -- SET_CYCLE_TIMES, by the configured row
  case h_24 hop =>
    rw [hop]
    cases w <;> cases h <;> exact ⟨rfl, nofun, rfl⟩
  -- a selector that selects nothing
  case h_29 => cases h
  -- at most one operand
  all_goals
    rename_i hop
    cases h
    rw [hop]
    exact ⟨rfl, fun _ _ => rfl, by trivial⟩

/-! ### The payload as the sequencer supplies it -/

/-- S when `j` payload bytes have been handed over: streamed tokens are consumed as they are sent (10 R24). -/
def streamAt (src : PayloadSource) (j : Nat) (s : State) : List Byte :=
  match src with
  | .tokens => s.stream.drop j
  | _ => s.stream

/-- In WRITE the source supplies the payload `p`, byte by byte. -/
structure Feeds (src : PayloadSource) (p : List Byte) (s : State) : Prop where
  length : payloadLength src s = p.length
  bound  : p.length ≤ 255
  byte   : ∀ j b, p[j]? = some b → payloadByte src j { s with stream := streamAt src j s } = .ok b
  used   : streamAt src (p.length + 1) s = streamAt src p.length s

/-- The state in which the sequencer enters WRITE: a path is in PBUF, tokens are in S (10 R27, R29). -/
def writeEntry (i : Instr) (s : State) : State :=
  match i with
  | .playByPath d p | .interludeByPath d p => { pathAssembled d p s with phase := .write }
  | _ => { accept s with phase := .write }

theorem writeEntry_facts (i : Instr) (s : State) :
    (writeEntry i s).phase = .write ∧ (writeEntry i s).idx = 0#9 ∧ (writeEntry i s).acc = 0#8 ∧
      (writeEntry i s).opsel = s.opsel ∧ (writeEntry i s).txRoom = s.txRoom := by
  cases i <;> exact ⟨rfl, rfl, rfl, rfl, rfl⟩

theorem byteAt_of_getElem? {bs : List Byte} {j : Nat} {b : Byte} (h : bs[j]? = some b) : byteAt bs j = b := by
  rw [byteAt, List.getD_eq_getElem?_getD, h, Option.getD_some]

/-- PBUF supplies the assembled payload of a path command (10 R29). -/
theorem feeds_path {d : Byte} {p : List Byte} {s : State} (hlen : (pathPayload d p s.cfg.pathUpper).length ≤ 255) :
    Feeds .devPath (pathPayload d p s.cfg.pathUpper) { pathAssembled d p s with phase := .write } where
  length := by
    show (BitVec.ofNat 8 (pathPayload d p s.cfg.pathUpper).length).toNat = _
    rw [BitVec.toNat_ofNat]
    omega
  bound := hlen
  byte j b hb := by
    have hread : (Memory.writeList [] 0 (pathPayload d p s.cfg.pathUpper)).read j = some b :=
      (Memory.read_fresh _ j).trans hb
    simp only [payloadByte, pathAssembled, hread]
  used := rfl

/-- S supplies the token bytes, each consumed as it is sent (44 R136). -/
theorem feeds_tokens {ts : List Token} {s : State} (hcnt : s.aCnt.toNat = ts.length) (hs : s.stream = tokenBytes ts)
    (hts : ts.length ≤ 127) : Feeds .tokens (tokenBytes ts) { accept s with phase := .write } where
  length := by
    rw [tokenBytes_length, ← hcnt]
    rfl
  bound := by
    rw [tokenBytes_length]
    omega
  byte j b hb := by
    obtain ⟨hj, rfl⟩ := List.getElem?_eq_some_iff.1 hb
    have hdrop : (tokenBytes ts).drop j = (tokenBytes ts)[j] :: (tokenBytes ts).drop (j + 1) :=
      List.drop_eq_getElem_cons hj
    simp only [payloadByte, streamAt, accept, hs, hdrop]
  used := by
    simp only [streamAt, accept, hs]
    rw [List.drop_of_length_le (by omega), List.drop_of_length_le (by omega)]

/-- Whatever its source, an admitted command's payload is supplied as it is to be sent (30 R62). -/
theorem feeds_writeEntry {i : Instr} {s : State} (hl : Latched i s) (hadm : admission s.cfg i = none) :
    Feeds (payloadSource i) (sentPayload i s.cfg) (writeEntry i s) := by
  have hlen := sentPayload_length_le hadm
  cases i with
  | playByPath d p => exact feeds_path hlen
  | interludeByPath d p => exact feeds_path hlen
  | combinationPlay ts => exact feeds_tokens hl.1 hl.2 (admission_combinationPlay_eq_none.1 hadm)
  | setDevice d | setVolume d | setCycleMode d | setEq d =>
    refine ⟨rfl, hlen, fun j b hb => ?_, rfl⟩
    obtain rfl : b = d := List.mem_singleton.1 (List.mem_of_getElem? (l := [d]) hb)
    exact congrArg Except.ok hl
  | playByNumber n | select n =>
    refine ⟨rfl, hlen, fun j b hb => congrArg Except.ok ?_, rfl⟩
    rw [← byteAt_of_getElem? hb, ← show s.aNum = n from hl]
    rfl
  | setCycleTimesW1 n =>
    obtain rfl : s.aNum = n := hl
    rw [sentPayload_setCycleTimesW1] at hlen ⊢
    exact ⟨rfl, hlen, fun j b hb => congrArg Except.ok (byteAt_of_getElem? hb), rfl⟩
  | setCycleTimesW2 n =>
    obtain rfl : s.aNum = n := hl
    rw [sentPayload_setCycleTimesW2] at hlen ⊢
    exact ⟨rfl, hlen, fun j b hb => congrArg Except.ok (byteAt_of_getElem? hb), rfl⟩
  | interludeByNumber d n =>
    obtain ⟨rfl, rfl⟩ := hl
    exact ⟨rfl, hlen, fun j b hb => congrArg Except.ok (byteAt_of_getElem? hb), rfl⟩
  | _ => exact ⟨rfl, hlen, nofun, rfl⟩

/-- The transaction's start of the write phase is the sequencer's, with S as far as the transport will have taken it
(log 24). -/
theorem writeStart_eq_writeEntry {i : Instr} {s : State} (hl : Latched i s) :
    { writeEntry i s with
      stream := streamAt (payloadSource i) (acceptedCount ((sentPayload i s.cfg).length + 4) s.txRoom - 3)
        (writeEntry i s) } = { writeStart i s with phase := .write } := by
  cases i with
  | combinationPlay ts =>
    have hlen : (sentPayload (.combinationPlay ts) s.cfg).length = 2 * ts.length := tokenBytes_length ts
    rw [hlen]
    simp only [streamAt, payloadSource, writeEntry, writeStart, accept, hl.2]
  | _ => rfl

/-! ### WRITE, tick by tick -/

theorem ticks_add (a b : Nat) : ∀ s : State, ticks (a + b) s = andThen (ticks a s) (ticks b) := by
  induction a with
  | zero => intro s; rw [Nat.zero_add]; rfl
  | succ a ih =>
    intro s
    rw [Nat.succ_add, ticks, ticks]
    cases tick s with
    | next t => exact ih t
    | fault e => rfl
    | refused r => rfl

theorem ticks_trans {a b : Nat} {s t u : State} (h : ticks a s = .next t) (h' : ticks b t = .next u) :
    ticks (a + b) s = .next u := by
  rw [ticks_add, h, andThen_next, h']

theorem ticks_one (s : State) : ticks 1 s = tick s := by
  rw [ticks]
  cases tick s <;> rfl

theorem ticks_succ_of {k : Nat} {s t u : State} (h : ticks k s = .next t) (h' : tick t = .next u) :
    ticks (k + 1) s = .next u :=
  ticks_trans h ((ticks_one t).trans h')

/-- In WRITE with the first `k` bytes of the frame handed over. -/
def handing (src : PayloadSource) (f : List Byte) (k : Nat) (s : State) : State :=
  { s with
    tx := s.tx ++ f.take k, txRoom := s.txRoom.map (· - k), idx := BitVec.ofNat 9 k
    acc := checksum (f.take k), stream := streamAt src (k - 3) s }

theorem handing_zero {src : PayloadSource} {f : List Byte} {s : State} (hi : s.idx = 0#9) (ha : s.acc = 0#8) :
    handing src f 0 s = s := by
  have hroom : s.txRoom.map (· - 0) = s.txRoom := by cases s.txRoom <;> rfl
  have hstream : streamAt src (0 - 3) s = s.stream := by cases src <;> rfl
  rw [handing, List.take_zero, List.append_nil, hroom, hstream, ← show s.idx = BitVec.ofNat 9 0 from hi,
    show checksum [] = s.acc from ha.symm]

section
variable {row : PortRow} {p : List Byte} {s : State} {k : Nat}

theorem writeReturns_mono {m : Nat} (h : writeReturns m s = true) (hk : k ≤ m) : writeReturns k s = true := by
  cases hr : s.txRoom with
  | none => simp only [writeReturns, hr]
  | some r =>
    simp only [writeReturns, hr, decide_eq_true_eq] at h ⊢
    omega

/-- A transport that accepts `k + 1` bytes accepts one more when it has `k`. -/
theorem writeReturns_handing {src : PayloadSource} {f : List Byte} (h : writeReturns (k + 1) s = true) :
    writeReturns 1 (handing src f k s) = true := by
  simp only [writeReturns, handing] at h ⊢
  cases hr : s.txRoom with
  | none => rfl
  | some r =>
    simp only [hr, decide_eq_true_eq, Option.map_some] at h ⊢
    omega

/-- One more byte of the frame (10 R27, R28). -/
theorem emit_handing {src : PayloadSource} {f : List Byte} {b : Byte} (hb : f[k]? = some b)
    (hw : writeReturns (k + 1) s = true) :
    emit b { handing src f k s with stream := streamAt src (k + 1 - 3) s } = handing src f (k + 1) s := by
  have hone := acceptedCount_of_returns (writeReturns_handing (src := src) (f := f) hw)
  have hroom : (s.txRoom.map (· - k)).map (· - 1) = s.txRoom.map (· - (k + 1)) := by
    cases s.txRoom <;> rfl
  have htake : f.take (k + 1) = f.take k ++ [b] := by rw [List.take_add_one, hb, Option.toList_some]
  have hsum : checksum (f.take k) + b = checksum (f.take k ++ [b]) := by
    rw [checksum_append, checksum_cons, show checksum [] = 0#8 from rfl, BitVec.add_zero]
  simp only [handing] at hone ⊢
  simp only [emit, txWrite, List.length_singleton, hone, hroom, htake, hsum, List.take_succ_cons, List.take_zero,
    List.append_assoc, BitVec.ofNat_add]

/-- The bytes of a frame by their offset (30 R60). -/
theorem frameOf_getElem? (op : Byte) (p : List Byte) :
    (frameOf op p)[0]? = some Config.header ∧ (frameOf op p)[1]? = some op ∧
    (frameOf op p)[2]? = some (BitVec.ofNat 8 p.length) ∧
    (∀ j, j < p.length → (frameOf op p)[3 + j]? = p[j]?) := by
  refine ⟨rfl, rfl, rfl, fun j hj => ?_⟩
  rw [Nat.add_comm]
  exact List.getElem?_append_left (by rw [frameBody_length]; omega)

theorem payloadLength_handing (src : PayloadSource) (f : List Byte) :
    payloadLength src (handing src f k s) = payloadLength src s := by
  cases src <;> rfl

/-- What the payload's source supplies does not depend on what was handed over, but for S. -/
theorem payloadByte_handing (src : PayloadSource) (f : List Byte) (j : Nat) :
    payloadByte src j (handing src f k s) = payloadByte src j { s with stream := streamAt src (k - 3) s } := by
  cases src <;> rfl

theorem consume_handing (src : PayloadSource) (f : List Byte) (hk : 3 ≤ k) :
    consume src (handing src f k s) = { handing src f k s with stream := streamAt src (k + 1 - 3) s } := by
  cases src with
  | tokens =>
    have hstep : k + 1 - 3 = k - 3 + 1 := by omega
    simp only [consume, handing, streamAt, hstep, List.tail_drop]
  | _ => rfl

theorem tick_write (hphase : s.phase = .write) (hrow : portRow s.opsel.toNat = some row) :
    tick s = writeTick row s := by
  simp only [tick, hphase, hrow]

theorem handing_idx_toNat {src : PayloadSource} {f : List Byte} (hk : k < 512) :
    (handing src f k s).idx.toNat = k := by
  show (BitVec.ofNat 9 k).toNat = k
  rw [BitVec.toNat_ofNat]
  omega

/-- Before the checksum byte a tick hands over the next byte of the frame (10 R27, 20 R48 (b)). -/
theorem tick_handing (hphase : s.phase = .write) (hrow : portRow s.opsel.toNat = some row)
    (hfeed : Feeds row.source p s) (hk : k < p.length + 3) (hw : writeReturns (k + 1) s = true) :
    tick (handing row.source (frameOf row.opcode p) k s)
      = .next (handing row.source (frameOf row.opcode p) (k + 1) s) := by
  obtain ⟨h0, h1, h2, hpay⟩ := frameOf_getElem? row.opcode p
  have hbound := hfeed.bound
  have hlow : k < 3 → handing row.source (frameOf row.opcode p) k s =
      { handing row.source (frameOf row.opcode p) k s with stream := streamAt row.source (k + 1 - 3) s } := fun hk3 => by
    rw [show k + 1 - 3 = k - 3 by omega]
    rfl
  rw [tick_write (s := handing _ _ _ _) hphase hrow, writeTick, if_pos (writeReturns_handing hw), handOverTick,
    handing_idx_toNat (by omega), payloadLength_handing, hfeed.length]
  by_cases hk0 : k = 0
  · subst hk0
    rw [if_pos rfl, hlow (by decide), emit_handing h0 hw]
  by_cases hk1 : k = 1
  · subst hk1
    rw [if_neg hk0, if_pos rfl, hlow (by decide), emit_handing h1 hw]
  by_cases hk2 : k = 2
  · subst hk2
    rw [if_neg hk0, if_neg hk1, if_pos rfl, hlow (by decide), emit_handing h2 hw]
  have hj : k - 3 < p.length := by omega
  have hb : p[k - 3]? = some p[k - 3] := List.getElem?_eq_getElem hj
  have hf : (frameOf row.opcode p)[k]? = some p[k - 3] := by
    rw [← hb, ← hpay _ hj]
    congr 1
    omega
  rw [if_neg hk0, if_neg hk1, if_neg hk2, if_pos (by omega), payloadByte_handing, hfeed.byte _ _ hb]
  show Host.Outcome.next (emit _ (consume _ _)) = _
  rw [consume_handing _ _ (by omega), emit_handing hf hw]

/-- As many ticks as the transport accepts bytes, up to the checksum byte. -/
theorem ticks_handing (hphase : s.phase = .write) (hi : s.idx = 0#9) (ha : s.acc = 0#8)
    (hrow : portRow s.opsel.toNat = some row) (hfeed : Feeds row.source p s) :
    ∀ k, k ≤ p.length + 3 → writeReturns k s = true →
      ticks k s = .next (handing row.source (frameOf row.opcode p) k s) := by
  intro k
  induction k with
  | zero => exact fun _ _ => congrArg _ (handing_zero hi ha).symm
  | succ k ih =>
    intro hk hw
    exact ticks_succ_of (ih (by omega) (writeReturns_mono hw (Nat.le_succ k)))
      (tick_handing hphase hrow hfeed (by omega) hw)

/-- The last tick of WRITE hands over the checksum byte, which is ACC (10 R28). -/
theorem tick_checksum (hphase : s.phase = .write) (hrow : portRow s.opsel.toNat = some row)
    (hfeed : Feeds row.source p s) (hw : writeReturns (p.length + 4) s = true) :
    tick (handing row.source (frameOf row.opcode p) (p.length + 3) s)
      = .next (endWrite row.reply (sentState row.opcode p
          { s with stream := streamAt row.source (p.length + 1) s })) := by
  have hbound := hfeed.bound
  have hret : writeReturns 1 (handing row.source (frameOf row.opcode p) (p.length + 3) s) = true :=
    writeReturns_handing hw
  have hone := acceptedCount_of_returns hret
  have hroom : (s.txRoom.map (· - (p.length + 3))).map (· - 1) = s.txRoom.map (· - (p.length + 4)) := by
    cases s.txRoom <;> rfl
  have hbody : (frameOf row.opcode p).take (p.length + 3) = frameBody row.opcode p := by
    rw [frameOf, ← frameBody_length row.opcode p, List.take_left]
  have hsent : txWrite [(handing row.source (frameOf row.opcode p) (p.length + 3) s).acc]
      (handing row.source (frameOf row.opcode p) (p.length + 3) s)
      = sentState row.opcode p { s with stream := streamAt row.source (p.length + 1) s } := by
    simp only [handing] at hone ⊢
    simp only [txWrite, sentState, List.length_singleton, hone, hroom, hbody, hfeed.used, hphase,
      List.take_succ_cons, List.take_zero, List.append_assoc, Nat.add_sub_cancel, Nat.add_comm 3,
      show frameBody row.opcode p ++ [checksum (frameBody row.opcode p)] = frameOf row.opcode p from rfl]
  rw [tick_write (s := handing _ _ _ _) hphase hrow, writeTick, if_pos hret, handOverTick,
    handing_idx_toNat (by omega), payloadLength_handing, hfeed.length, if_neg (by omega), if_neg (by omega),
    if_neg (by omega), if_neg (by omega), hsent]

end

/-! ### WRITE as a whole -/

section
variable {i : Instr} {s : State}

/-- Where the transport accepts the frame, so many ticks send it, and the sequencer goes on as the command does. -/
theorem ticks_write_whole (hl : Latched i s) (hrow : portRow s.opsel.toNat = some (commandRow i))
    (hadm : admission s.cfg i = none) (hw : writeReturns ((sentPayload i s.cfg).length + 4) s = true) :
    ticks ((sentPayload i s.cfg).length + 4) (writeEntry i s)
      = .next (endWrite (commandRow i).reply (sentState i.opcode (sentPayload i s.cfg) (writeStart i s))) := by
  have hfeed := feeds_writeEntry hl hadm
  obtain ⟨hphase, hidx, hacc, hopsel, hroom⟩ := writeEntry_facts i s
  have hrow' : portRow (writeEntry i s).opsel.toNat = some (commandRow i) := by rwa [hopsel]
  have hw' : writeReturns ((sentPayload i s.cfg).length + 4) (writeEntry i s) = true := by
    rwa [writeReturns, hroom]
  have hstart := writeStart_eq_writeEntry hl
  rw [acceptedCount_of_returns hw, show (sentPayload i s.cfg).length + 4 - 3 = (sentPayload i s.cfg).length + 1 from rfl]
    at hstart
  refine (ticks_succ_of (ticks_handing hphase hidx hacc hrow' hfeed _ (Nat.le_refl _)
    (writeReturns_mono hw' (Nat.le_succ _))) (tick_checksum hphase hrow' hfeed hw')).trans ?_
  rw [show payloadSource i = (commandRow i).source from rfl] at hstart
  rw [hstart]
  rfl

/-- Where the transport accepts less, the sequencer is stuck with so many bytes handed over (70 R192 (d)). -/
theorem ticks_write_short {r : Nat} (hl : Latched i s) (hrow : portRow s.opsel.toNat = some (commandRow i))
    (hadm : admission s.cfg i = none) (hroom : s.txRoom = some r) (hr : r < (sentPayload i s.cfg).length + 4) :
    ticks r (writeEntry i s) = .next (stalledState (sentFrame i s.cfg) r (writeStart i s)) := by
  have hfeed := feeds_writeEntry hl hadm
  obtain ⟨hphase, hidx, hacc, hopsel, hroom'⟩ := writeEntry_facts i s
  have hrow' : portRow (writeEntry i s).opsel.toNat = some (commandRow i) := by rwa [hopsel]
  rw [hroom] at hroom'
  have hw : writeReturns r (writeEntry i s) = true := by simp only [writeReturns, hroom', decide_eq_true_eq, le_refl]
  have hstart := writeStart_eq_writeEntry hl
  rw [hroom, acceptedCount_some, Nat.min_eq_right (by omega)] at hstart
  refine (ticks_handing hphase hidx hacc hrow' hfeed r (by omega) hw).trans (congrArg _ ?_)
  calc handing (payloadSource i) (sentFrame i s.cfg) r (writeEntry i s)
      = stalledState (sentFrame i s.cfg) r
          { writeEntry i s with stream := streamAt (payloadSource i) (r - 3) (writeEntry i s) } := by
        simp only [handing, stalledState, hroom', Option.map_some, Nat.sub_self, hphase]
    _ = stalledState (sentFrame i s.cfg) r (writeStart i s) := by rw [hstart]; rfl

end

/-! ### ENCODE -/

theorem Memory.writeList_append (xs ys : List Byte) : ∀ (m : Memory) (a : Nat),
    m.writeList a (xs ++ ys) = (m.writeList a xs).writeList (a + xs.length) ys := by
  induction xs with
  | nil => exact fun m a => rfl
  | cons x xs ih =>
    intro m a
    rw [List.cons_append, Memory.writeList, Memory.writeList, ih, List.length_cons, Nat.add_right_comm]
    rfl

/-- In ENCODE with the path bytes `done` assembled behind the device byte and `rest` still in S (10 R29). -/
def encoding (d : Byte) (done rest : List Byte) (s : State) : State :=
  { accept s with
    phase := .encode, stream := rest, pbuf := Memory.writeList [] 0 (d :: done)
    plen := BitVec.ofNat 8 (1 + done.length) }

theorem encodeTick_cons {c : Byte} {rest : List Byte} {s : State} (hs : s.stream = c :: rest) (hne : s.plen ≠ 0#8) :
    encodeTick s = .next { s with
      stream := rest
      pbuf := s.pbuf.writeList s.plen.toNat (escapeByte s.cfg.pathUpper c)
      plen := s.plen + BitVec.ofNat 8 (escapeByte s.cfg.pathUpper c).length } := by
  simp only [encodeTick, hs]
  exact if_neg hne

/-- One path byte behind the leading one (43 R120). -/
theorem tick_encoding {d c : Byte} {done rest : List Byte} {s : State} (hne : 0 < done.length)
    (hlen : 1 + done.length + (escapeByte s.cfg.pathUpper c).length ≤ 255) :
    tick (encoding d done (c :: rest) s) = .next (encoding d (done ++ escapeByte s.cfg.pathUpper c) rest s) := by
  have hplen : (BitVec.ofNat 8 (1 + done.length)).toNat = (d :: done).length := by
    rw [BitVec.toNat_ofNat, List.length_cons]
    omega
  have hnz : BitVec.ofNat 8 (1 + done.length) ≠ 0#8 := fun h => by
    rw [h, List.length_cons] at hplen
    exact absurd hplen (by simp)
  have hpbuf : (Memory.writeList [] 0 (d :: done)).writeList (BitVec.ofNat 8 (1 + done.length)).toNat
      (escapeByte s.cfg.pathUpper c) = Memory.writeList [] 0 (d :: (done ++ escapeByte s.cfg.pathUpper c)) := by
    rw [hplen, ← List.cons_append, Memory.writeList_append, Nat.zero_add]
  have hcount : BitVec.ofNat 8 (1 + done.length) + BitVec.ofNat 8 (escapeByte s.cfg.pathUpper c).length
      = BitVec.ofNat 8 (1 + (done ++ escapeByte s.cfg.pathUpper c).length) := by
    rw [← BitVec.ofNat_add, Nat.add_assoc, ← List.length_append]
  unfold encoding
  rw [← hpbuf, ← hcount]
  exact encodeTick_cons (s := encoding d done (c :: rest) s) rfl hnz

/-- The rest of a path, byte by byte. -/
theorem ticks_encoding {d : Byte} {s : State} (rest : List Byte) : ∀ done : List Byte, 0 < done.length →
    1 + done.length + (rest.flatMap (escapeByte s.cfg.pathUpper)).length ≤ 255 →
    ticks rest.length (encoding d done rest s)
      = .next (encoding d (done ++ rest.flatMap (escapeByte s.cfg.pathUpper)) [] s) := by
  induction rest with
  | nil => exact fun done _ _ => by rw [List.flatMap_nil, List.append_nil]; rfl
  | cons c rest ih =>
    intro done hne hlen
    rw [List.flatMap_cons, List.length_append] at hlen
    rw [List.length_cons, ticks, tick_encoding hne (by omega), andThen_next, ih, List.flatMap_cons, List.append_assoc]
    · rw [List.length_append]
      omega
    · rw [List.length_append]
      omega

/-- ENCODE assembles the payload of a path command in PBUF and consumes S (43 R125). -/
theorem ticks_encode {d c : Byte} {rest : List Byte} {s : State} (hd : s.aDev = d) (hs : s.stream = c :: rest)
    (hlen : (pathPayload d (c :: rest) s.cfg.pathUpper).length ≤ 255) :
    ticks (rest.length + 2) { accept s with phase := .encode }
      = .next { pathAssembled d (c :: rest) s with phase := .write } := by
  have hfirst : tick { accept s with phase := .encode } = .next (encoding d [c] rest s) := by
    subst hd
    show encodeTick _ = _
    simp only [encodeTick, accept, hs, if_true, encoding]
    rfl
  have hrest : (pathPayload d (c :: rest) s.cfg.pathUpper).length
      = 1 + [c].length + (rest.flatMap (escapeByte s.cfg.pathUpper)).length := by
    simp only [pathPayload, encodePath, List.length_cons, List.length_nil]
    omega
  have hticks := ticks_trans ((ticks_one _).trans hfirst)
    (ticks_encoding (d := d) rest [c] (Nat.zero_lt_succ 0) (hrest ▸ hlen))
  rw [Nat.add_comm 1] at hticks
  refine ticks_succ_of hticks ?_
  show Host.Outcome.next _ = _
  rw [pathAssembled, hrest, encoding, List.length_append, ← Nat.add_assoc]
  rfl

/-! ### The sequencer and the transaction -/

section
variable {i : Instr} {s t : State}

/-- From acceptance an admitted command that is no silent no-op comes to WRITE. -/
theorem ticks_firstPhase (hl : Latched i s) (hadm : admission s.cfg i = none) (hi : i.isNoOp = false) :
    ∃ n, ticks n (firstPhase i (accept s)) = .next (writeEntry i s) := by
  cases i with
  | playByPath d p =>
    cases p with
    | nil => cases hi
    | cons c rest => exact ⟨_, ticks_encode hl.1 hl.2 (sentPayload_length_le hadm)⟩
  | interludeByPath d p =>
    cases p with
    | nil => cases hi
    | cons c rest => exact ⟨_, ticks_encode hl.1 hl.2 (sentPayload_length_le hadm)⟩
  | combinationPlay ts =>
    cases ts with
    | nil => cases hi
    | cons tok ts => exact ⟨0, rfl⟩
  | _ => exact ⟨0, rfl⟩

theorem firstPhase_noOp (hi : i.isNoOp = true) : firstPhase i (accept s) = silentNoOp s := by
  unfold Instr.isNoOp at hi
  split at hi
  · rfl
  · rfl
  · rfl
  · cases hi

/-- A query whose frame is sent is in READ (10 R27). -/
theorem ticks_write_query (hl : Latched i s) (hrow : portRow s.opsel.toNat = some (commandRow i))
    (hadm : admission s.cfg i = none) (hq : i.isQuery = true) (hw : writeReturns 4 s = true) :
    ticks 4 (writeEntry i s) = .next { sentState i.opcode [] (accept s) with phase := .read } := by
  obtain ⟨-, hp, hstart⟩ := isQuery_facts hq s
  have hticks := ticks_write_whole hl hrow hadm (by rwa [hp])
  have hreply : (commandRow i).reply = some i.queryClass := if_pos hq
  rw [hp, hstart, hreply] at hticks
  exact hticks

/-- The one tick in READ makes the read and judges it (45 R151). -/
theorem tick_read {bs : List Byte} (hrow : portRow s.opsel.toNat = some (commandRow i)) (hq : i.isQuery = true)
    (hsent : sentinelOf s.opsel.toNat s.par = i.sentinel s.par)
    (ha : nextAnswer (i.queryClass.readLength s.par) s = .bytes bs) :
    tick { sentState i.opcode [] (accept s) with phase := .read } =
      .next (judgeResponse i.queryClass (i.queryClass.readLength s.par) (i.sentinel s.par)
        (bs.take (i.queryClass.readLength s.par))
        (answeredState i.opcode (i.queryClass.readLength s.par) bs s)) := by
  have hreply : (commandRow i).reply = some i.queryClass := if_pos hq
  have ha' : nextAnswer (i.queryClass.readLength s.par) { sentState i.opcode [] (accept s) with phase := .read }
      = .bytes bs := ha
  have hread : readTick i.queryClass (i.sentinel s.par) { sentState i.opcode [] (accept s) with phase := .read }
      = .next (readPhase i.queryClass (i.sentinel s.par) { sentState i.opcode [] (accept s) with phase := .read }) := by
    simp only [readTick, sentState, accept_par] at ha' ⊢
    rw [ha']
  rw [readPhase_bytes ha'] at hread
  refine Eq.trans ?_ hread
  simp only [tick, sentState, accept_opsel, accept_par, hrow, hreply, hsent]

/-- From acceptance some number of ticks reaches the state that the command answers. -/
theorem ticks_of_exec (hl : Latched i s) (hrow : portRow s.opsel.toNat = some (commandRow i))
    (hsent : i.isQuery = true → ∀ par, sentinelOf s.opsel.toNat par = i.sentinel par) (h : exec i s = .next t) :
    ∃ n, ticks n (firstPhase i (accept s)) = .next t := by
  have hadm := (exec_eq_next.1 h).1
  have hreach : ∀ {m : Nat} {u : State}, i.isNoOp = false → ticks m (writeEntry i s) = .next u →
      ∃ n, ticks n (firstPhase i (accept s)) = .next u := fun hi hm => by
    obtain ⟨n, hn⟩ := ticks_firstPhase hl hadm hi
    exact ⟨_, ticks_trans hn hm⟩
  cases exec_ends h with
  | silent hi => exact ⟨0, congrArg _ (firstPhase_noOp hi)⟩
  | stalled hi hroom hr => exact hreach hi (ticks_write_short hl hrow hadm hroom hr)
  | fired hi hq hw =>
    have hticks := ticks_write_whole hl hrow hadm hw
    have hreply : (commandRow i).reply = none := if_neg (ne_true_of_eq_false hq)
    rw [hreply] at hticks
    exact hreach hi hticks
  | unanswered hq hw => exact hreach (isQuery_facts hq s).1 (ticks_write_query hl hrow hadm hq hw)
  | answered hq hw ha =>
    exact hreach (isQuery_facts hq s).1
      (ticks_succ_of (ticks_write_query hl hrow hadm hq hw) (tick_read hrow hq (hsent hq s.par) ha))

end

section
variable {c : PortCmd} {s : State} {i : Instr} {r : Refusal}

/-- What the port does not decode stops both alike (30 R72, 70 R195). -/
theorem acceptPort_of_error {e : PortError} (hb : s.busy = false) (h : decodePort s.cfg.cycleW c = .error e) :
    acceptPort c s = runPort c s ∧ ∀ t, runPort c s ≠ .next t := by
  rw [acceptPort, if_neg (ne_true_of_eq_false hb), runPort, h]
  cases e <;> exact ⟨rfl, nofun⟩

theorem acceptPort_of_refused (hb : s.busy = false) (h : decodePort s.cfg.cycleW c = .ok i)
    (hadm : admission s.cfg i = some r) : acceptPort c s = .refused r := by
  rw [acceptPort, if_neg (ne_true_of_eq_false hb), h]
  simp only [hadm]

theorem acceptPort_of_admitted (hb : s.busy = false) (h : decodePort s.cfg.cycleW c = .ok i)
    (hadm : admission s.cfg i = none) : acceptPort c s = .next (firstPhase i (accept (latch c s))) := by
  rw [acceptPort, if_neg (ne_true_of_eq_false hb), h]
  simp only [hadm]

theorem runPort_of_ok (h : decodePort s.cfg.cycleW c = .ok i) : runPort c s = exec i (latch c s) := by
  rw [runPort, h]

end

/-- Settles O55: both decode the port and test the domain alike; then the sequencer reaches what `exec` answers. -/
theorem sequencerRealisesTheTransaction : Obligations.SequencerRealisesTheTransaction := by
  unfold Obligations.SequencerRealisesTheTransaction
  intro s c hb
  cases hdec : decodePort s.cfg.cycleW c with
  | error e =>
    obtain ⟨hsame, hstop⟩ := acceptPort_of_error hb hdec
    exact ⟨fun t h => absurd h (hstop t), fun r h => hsame.trans h, fun e h => hsame.trans h⟩
  | ok i =>
    rw [runPort_of_ok hdec]
    cases hadm : admission s.cfg i with
    | some r =>
      rw [exec_of_refused (s := latch c s) hadm, acceptPort_of_refused hb hdec hadm]
      exact ⟨nofun, fun _ h => h, nofun⟩
    | none =>
      obtain ⟨hrow, hsent, hl⟩ := decodePort_latched hdec s
      have hexec := exec_of_admitted (s := latch c s) hadm
      obtain ⟨n, hn⟩ := ticks_of_exec hl hrow hsent hexec
      rw [hexec]
      refine ⟨fun t h => ?_, nofun, nofun⟩
      cases h
      exact ⟨_, n, acceptPort_of_admitted hb hdec hadm, hn⟩

/-! ### One tick of WRITE and of READ -/

/-- What a tick in WRITE that goes on has handed over: the byte at offset IDX (10 R27, 20 R48 (b)). -/
inductive WriteTick (row : PortRow) (s : State) : State → Prop where
  | header (hidx : s.idx.toNat = 0) : WriteTick row s (emit Config.header s)
  | opcode (hidx : s.idx.toNat = 1) : WriteTick row s (emit row.opcode s)
  | length (hidx : s.idx.toNat = 2) : WriteTick row s (emit (BitVec.ofNat 8 (payloadLength row.source s)) s)
  | payload {b : Byte} (hidx : 3 ≤ s.idx.toNat) (hlt : s.idx.toNat < 3 + payloadLength row.source s)
      (hb : payloadByte row.source (s.idx.toNat - 3) s = .ok b) : WriteTick row s (emit b (consume row.source s))
  | checksum (hidx : 3 + payloadLength row.source s ≤ s.idx.toNat) :
      WriteTick row s (endWrite row.reply (txWrite [s.acc] s))

/-- The inversion of a tick in WRITE: the transport accepts the byte, and it is the one at offset IDX. -/
theorem writeTick_next {row : PortRow} {s t : State} (h : writeTick row s = .next t) :
    acceptedCount 1 s.txRoom = 1 ∧ WriteTick row s t := by
  unfold writeTick at h
  split at h
  · rename_i hw
    refine ⟨acceptedCount_of_returns hw, ?_⟩
    unfold handOverTick at h
    split at h
    · rename_i h0
      cases h
      exact .header h0
    split at h
    · rename_i h1
      cases h
      exact .opcode h1
    split at h
    · rename_i h2
      cases h
      exact .length h2
    split at h
    · rename_i hlt
      split at h
      · cases h
      · rename_i b hb
        cases h
        exact .payload (by omega) hlt hb
    · rename_i hge
      cases h
      exact .checksum (Nat.le_of_not_lt hge)
  · cases h

theorem emit_tx_of_accepted {s : State} (h : acceptedCount 1 s.txRoom = 1) (b : Byte) :
    (emit b s).tx = s.tx ++ [b] := by
  rw [emit_tx, h]
  rfl

/-- Consuming a byte of S changes nothing else (10 R24). -/
theorem consume_eq (src : PayloadSource) (s : State) : ∃ st, consume src s = { s with stream := st } := by
  cases src <;> exact ⟨_, rfl⟩

/-- IDX moves on by one within the frame (10 R27). -/
theorem idx_add_one {i : BitVec 9} (h : i.toNat < 258) : (i + 1#9).toNat = i.toNat + 1 := by
  rw [BitVec.toNat_add]
  simp only [BitVec.toNat_ofNat]
  omega

/-- A byte in front of the checksum joins TX and ACC, and IDX moves on (10 R27, R28). -/
theorem emit_facts {s u : State} {b : Byte} (hu : ∃ st, u = { s with stream := st })
    (hacc : acceptedCount 1 s.txRoom = 1) (hidx : s.idx.toNat < 258) :
    (emit b u).tx = s.tx ++ [b] ∧ (emit b u).idx.toNat = s.idx.toNat + 1 ∧ (emit b u).acc = s.acc + b ∧
      (emit b u).phase = s.phase := by
  obtain ⟨st, rfl⟩ := hu
  exact ⟨emit_tx_of_accepted (s := { s with stream := st }) hacc b, idx_add_one hidx, rfl, rfl⟩

/-- The end of WRITE: READ for a query, else the command is over (10 R27). -/
theorem endWrite_facts (reply : Option RespClass) (s : State) :
    (endWrite reply s).tx = s.tx ∧ (endWrite reply s).acc = s.acc ∧ (endWrite reply s).idx = s.idx ∧
      (endWrite reply s).rx = s.rx ∧ (endWrite reply s).phase = if reply.isSome then .read else .idle := by
  cases reply <;> exact ⟨rfl, rfl, rfl, rfl, rfl⟩

/-- Settles O56: the byte is by offset that of the inversion of the tick. -/
theorem writeTickSendsTheByteAtIdx : Obligations.WriteTickSendsTheByteAtIdx := by
  unfold Obligations.WriteTickSendsTheByteAtIdx
  intro s t row hphase hrow hlen hidx h
  rw [tick_write hphase hrow] at h
  obtain ⟨hacc, hcase⟩ := writeTick_next h
  have hself : ∃ st, s = { s with stream := st } := ⟨s.stream, rfl⟩
  cases hcase with
  | header h0 =>
    obtain ⟨htx, hi, ha, hp⟩ := emit_facts (b := Config.header) hself hacc (by omega)
    exact ⟨_, htx, fun _ => rfl, by omega, by omega, by omega, fun _ => ⟨hi, ha, hp.trans hphase⟩, by omega⟩
  | opcode h1 =>
    obtain ⟨htx, hi, ha, hp⟩ := emit_facts (b := row.opcode) hself hacc (by omega)
    exact ⟨_, htx, by omega, fun _ => rfl, by omega, by omega, fun _ => ⟨hi, ha, hp.trans hphase⟩, by omega⟩
  | length h2 =>
    obtain ⟨htx, hi, ha, hp⟩ :=
      emit_facts (b := BitVec.ofNat 8 (payloadLength row.source s)) hself hacc (by omega)
    exact ⟨_, htx, by omega, by omega, fun _ => rfl, by omega, fun _ => ⟨hi, ha, hp.trans hphase⟩, by omega⟩
  | @payload b h3 hlt hb =>
    obtain ⟨htx, hi, ha, hp⟩ := emit_facts (b := b) (consume_eq row.source s) hacc (by omega)
    exact ⟨b, htx, by omega, by omega, by omega, fun _ _ => hb, fun _ => ⟨hi, ha, hp.trans hphase⟩, by omega⟩
  | checksum hge =>
    obtain ⟨htx, ha, hi, -, hp⟩ := endWrite_facts row.reply (txWrite [s.acc] s)
    have hsent : (txWrite [s.acc] s).tx = s.tx ++ [s.acc] := by
      rw [txWrite_tx, List.length_singleton, hacc]
      rfl
    exact ⟨s.acc, htx.trans hsent, by omega, by omega, by omega, by omega, by omega, fun _ => ⟨rfl, ha, hi, hp⟩⟩

/-- A tick in WRITE reads nothing, and enters READ only with the checksum byte, which is ACC (20 R48 (c)). -/
theorem writeTick_reads {row : PortRow} {s t : State} (h : writeTick row s = .next t) (hphase : s.phase = .write) :
    t.rx = s.rx ∧ (t.phase = .read → t.tx = s.tx ++ [s.acc] ∧ 3 + payloadLength row.source s ≤ s.idx.toNat) := by
  obtain ⟨hacc, hcase⟩ := writeTick_next h
  have hno : ∀ u : State, u.phase = .write → u.phase = .read → False := fun u hw hr => by
    cases hw.symm.trans hr
  cases hcase with
  | header => exact ⟨rfl, fun hr => (hno s hphase hr).elim⟩
  | opcode => exact ⟨rfl, fun hr => (hno s hphase hr).elim⟩
  | length => exact ⟨rfl, fun hr => (hno s hphase hr).elim⟩
  | payload =>
    obtain ⟨st, hst⟩ := consume_eq row.source s
    rw [hst]
    exact ⟨rfl, fun hr => (hno s hphase hr).elim⟩
  | checksum hge =>
    obtain ⟨htx, -, -, hrx, -⟩ := endWrite_facts row.reply (txWrite [s.acc] s)
    refine ⟨hrx, fun _ => ⟨htx.trans ?_, hge⟩⟩
    rw [txWrite_tx, List.length_singleton, hacc]
    rfl

/-- A tick in ENCODE reads nothing and does not enter READ. -/
theorem encodeTick_reads {s t : State} (h : encodeTick s = .next t) (hphase : s.phase = .encode) :
    t.rx = s.rx ∧ t.phase ≠ .read := by
  unfold encodeTick at h
  split at h
  · cases h
    exact ⟨rfl, nofun⟩
  · split at h <;> cases h <;> exact ⟨rfl, by rw [hphase]; nofun⟩

/-- What a query's judged answer leaves in RESULT and ERR (45 R145 to R148, 60 R166, R167; log 6 where the answer has
no byte at offset 3, or no byte at all). -/
structure Judged (cls : RespClass) (n : Nat) (v : Half) (bs : List Byte) (t : State) : Prop where
  short     : bs.length < n → t.result = v ∧ t.err = .comm
  corrupted : 1 ≤ n → n ≤ bs.length → validate (bs.take n) = false → t.result = v ∧ t.err = .csum
  valid     : 1 ≤ n → n ≤ bs.length → validate (bs.take n) = true → t.err = .none ∧
    (cls = .resp8 → ∃ b, (4 ≤ n → bs[3]? = some b) ∧ t.result = zext16 b) ∧
    (cls = .resp16 → 5 ≤ n → ∃ h l, bs[3]? = some h ∧ bs[4]? = some l ∧ t.result = join h l)
  empty     : n = 0 → t.err = .none ∨ t.result = v ∧ t.err = .csum

theorem getD_take {n k : Nat} {bs : List Byte} (hk : k < n) (hn : n ≤ bs.length) (d : Byte) :
    bs[k]? = some ((bs.take n).getD k d) := by
  have hlt : k < (bs.take n).length := by rw [List.length_take]; omega
  rw [List.getD_eq_getElem _ _ hlt, ← List.getElem?_eq_getElem hlt, List.getElem?_take_of_lt hk]

theorem judgeResponse_judged (cls : RespClass) (n : Nat) (v : Half) (bs : List Byte) (s : State) :
    Judged cls n v bs (judgeResponse cls n v (bs.take n) s) where
  short hlt := by
    have hlen : (bs.take n).length < n := by rw [List.length_take]; omega
    rw [judgeResponse_short hlen]
    exact ⟨rfl, rfl⟩
  corrupted hpos hle hv := by
    rw [judgeResponse_corrupted hpos (List.length_take_of_le hle) hv]
    exact ⟨rfl, rfl⟩
  valid hpos hle hv := by
    rw [judgeResponse_valid hpos (List.length_take_of_le hle) hv]
    refine ⟨rfl, fun hc => ?_, fun hc h5 => ?_⟩
    · rw [hc]
      exact ⟨_, fun h4 => getD_take h4 hle _, rfl⟩
    · rw [hc]
      exact ⟨_, _, getD_take (by omega) hle 0#8, getD_take (by omega) hle 0#8, rfl⟩
  empty hz := by
    subst hz
    rw [judgeResponse, if_neg (Nat.not_lt_zero _)]
    cases responseValid (bs.take 0) s with
    | true => exact .inl rfl
    | false => exact .inr ⟨rfl, rfl⟩

/-- The inversion of a tick in READ that makes the read. -/
theorem readTick_next {cls : RespClass} {v : Half} {s t : State} (h : readTick cls v s = .next t) :
    ∃ bs, nextAnswer (cls.readLength s.par) s = .bytes bs ∧ Judged cls (cls.readLength s.par) v bs t ∧
      t.rx = s.rx ++ [{ want := cls.readLength s.par, got := bs.take (cls.readLength s.par) }] ∧
      t.tx = s.tx ∧ t.phase = .idle ∧ t.busy = false := by
  unfold readTick at h
  split at h
  · cases h
  · rename_i bs ha
    cases h
    rw [readPhase_bytes ha]
    obtain ⟨r, e, hj⟩ := judgeResponse_eq cls (cls.readLength s.par) v (bs.take (cls.readLength s.par))
      (rxAnswered (cls.readLength s.par) bs { s with phase := .read })
    refine ⟨bs, ha, judgeResponse_judged .., ?_⟩
    rw [hj]
    exact ⟨rfl, rfl, rfl, rfl⟩

/-- Settles O57: only the tick in READ reads, and only the last tick of WRITE enters READ. -/
theorem readFollowsTheWholeFrame : Obligations.ReadFollowsTheWholeFrame := by
  unfold Obligations.ReadFollowsTheWholeFrame
  intro s t h
  cases hphase : s.phase with
  | idle =>
    simp only [tick, hphase] at h
    cases h
    exact ⟨fun hne => absurd rfl hne, fun _ hr => by cases hphase.symm.trans hr⟩
  | encode =>
    simp only [tick, hphase] at h
    obtain ⟨hrx, hp⟩ := encodeTick_reads h hphase
    exact ⟨fun hne => absurd hrx hne, fun _ hr => absurd hr hp⟩
  | write =>
    simp only [tick, hphase] at h
    split at h
    · cases h
    · rename_i row hrow
      obtain ⟨hrx, hread⟩ := writeTick_reads h hphase
      exact ⟨fun hne => absurd hrx hne, fun _ hr => ⟨rfl, (hread hr).1, row, hrow, (hread hr).2⟩⟩
  | read =>
    refine ⟨fun hne => ?_, fun hne => absurd rfl hne⟩
    simp only [tick, hphase] at h
    split at h
    · cases h
    · rename_i row hrow
      split at h
      · cases h
        exact absurd rfl hne
      · rename_i cls hreply
        obtain ⟨bs, ha, hjudged, hrx, htx, hp, hb⟩ := readTick_next h
        refine ⟨rfl, htx, hp, hb, row, cls, _, bs, hrow, hreply, rfl, ha, hrx, hjudged.short, hjudged.corrupted,
          fun hpos hle hv => ?_, hjudged.empty⟩
        obtain ⟨herr, h8, h16⟩ := hjudged.valid hpos hle hv
        exact ⟨herr, h8, fun hc => h16 hc (by rw [hc]; exact (by decide : 5 ≤ 6))⟩

end Sys2Proof.Machine
end
